-- ==== Sys2Proof/Word.lean ====
section
/-! DEFINITION. The two word types of the MC6809E (spec/00_scope.md R6): the 8-bit byte, the
addressable unit, and the 16-bit word, the width of an address and of the pointer registers. -/

namespace Sys2Proof

/-- A byte: the addressable unit, and the width of A, B, DP and CC (R6, R50). -/
abbrev Byte := BitVec 8

/-- A 16-bit value: an address, or the contents of X, Y, U, S, PC or the pair D (R6). -/
abbrev Word := BitVec 16

end Sys2Proof
end

