-- ==== Sys2Proof/Machine/Bits.lean ====
section
/-! DEFINITION. Byte order, slices and extensions (spec/00_scope.md R8, R10; spec/20_memory.md R53). -/

namespace Sys2Proof

/-- `h : l`, the word whose high byte is `h` (R8; high byte first, R53, R54). -/
def joinBytes (h l : Byte) : Word := h ++ l

/-- Bits 15:8 of a word. -/
def highByte (w : Word) : Byte := w.extractLsb' 8 8

/-- Bits 7:0 of a word. -/
def lowByte (w : Word) : Byte := w.extractLsb' 0 8

/-- `sext_16` of a 5-bit offset (R87, R92). -/
def sext5 (n : BitVec 5) : Word := n.signExtend 16

/-- `sext_16` of a byte (R85, R92, R164). -/
def sext8 (n : Byte) : Word := n.signExtend 16

/-- `zext_16` of a byte (R231). -/
def zext8 (n : Byte) : Word := n.setWidth 16

end Sys2Proof
end

