-- ==== Sys2Proof/Syntax.lean ====
section
/-! DEFINITION. The instructions of the MC6809E as syntax: one constructor of `Instr` for each of the
80 rows of spec/opcode_table.json, the 56 opcode rows (spec/30_encoding.md R99) and the 24 indexed
postbyte rows (R100). -/

namespace Sys2Proof

/-- The pointer registers an indexed postbyte's RR field selects (R86). -/
inductive PtrReg
  | x | y | u | s
  deriving DecidableEq, Repr

/-- The registers a TFR or EXG postbyte names by a 4-bit code (R95). -/
inductive Reg
  | d | x | y | u | s | pc | a | b | cc | dp
  deriving DecidableEq, Repr

/-- The indexed operand forms: the rows of Table 2 (R89, R90). The don't-care bits of the
PC-relative forms and of extended indirect are not kept (R93; log 18). -/
inductive Indexed
  /-- `n,R`, 5-bit offset, postbyte `0RRnnnnn` (R161) -/
  | off5 (r : PtrReg) (n : BitVec 5)
  /-- `,R+`, postbyte `1RR00000` (R165) -/
  | inc1 (r : PtrReg)
  /-- `,R++`, postbyte `1RR00001` (R165) -/
  | inc2 (r : PtrReg)
  /-- `[,R++]`, postbyte `1RR10001` (R165, R176) -/
  | inc2Ind (r : PtrReg)
  /-- `,-R`, postbyte `1RR00010` (R167) -/
  | dec1 (r : PtrReg)
  /-- `,--R`, postbyte `1RR00011` (R167) -/
  | dec2 (r : PtrReg)
  /-- `[,--R]`, postbyte `1RR10011` (R167, R176) -/
  | dec2Ind (r : PtrReg)
  /-- `,R`, postbyte `1RR00100` (R160) -/
  | zero (r : PtrReg)
  /-- `[,R]`, postbyte `1RR10100` (R160, R176) -/
  | zeroInd (r : PtrReg)
  /-- `B,R`, postbyte `1RR00101` (R164) -/
  | accB (r : PtrReg)
  /-- `[B,R]`, postbyte `1RR10101` (R164, R176) -/
  | accBInd (r : PtrReg)
  /-- `A,R`, postbyte `1RR00110` (R164) -/
  | accA (r : PtrReg)
  /-- `[A,R]`, postbyte `1RR10110` (R164, R176) -/
  | accAInd (r : PtrReg)
  /-- `n,R`, 8-bit offset, postbyte `1RR01000` (R162) -/
  | off8 (r : PtrReg) (n : Byte)
  /-- `[n,R]`, 8-bit offset, postbyte `1RR11000` (R162, R176) -/
  | off8Ind (r : PtrReg) (n : Byte)
  /-- `n,R`, 16-bit offset, postbyte `1RR01001` (R163) -/
  | off16 (r : PtrReg) (n : Word)
  /-- `[n,R]`, 16-bit offset, postbyte `1RR11001` (R163, R176) -/
  | off16Ind (r : PtrReg) (n : Word)
  /-- `D,R`, postbyte `1RR01011` (R164) -/
  | accD (r : PtrReg)
  /-- `[D,R]`, postbyte `1RR11011` (R164, R176) -/
  | accDInd (r : PtrReg)
  /-- `n,PCR`, 8-bit offset, postbyte `1xx01100` (R172) -/
  | pcr8 (n : Byte)
  /-- `[n,PCR]`, 8-bit offset, postbyte `1xx11100` (R172, R176) -/
  | pcr8Ind (n : Byte)
  /-- `n,PCR`, 16-bit offset, postbyte `1xx01101` (R172) -/
  | pcr16 (n : Word)
  /-- `[n,PCR]`, 16-bit offset, postbyte `1xx11101` (R172, R176) -/
  | pcr16Ind (n : Word)
  /-- `[n]`, extended indirect, postbyte `1xx11111` (R175) -/
  | extInd (n : Word)
  deriving DecidableEq, Repr

/-- The instructions: one constructor for each row of the opcode table.

The last 24, named `pb…`, stand for the table's postbyte rows. No instruction begins with a postbyte:
these constructors are the addressing-mode computation alone (phases 1 and 2 of R181), which every
indexed instruction performs through the same operand forms. DESIGN CHOICE, safe (log 13). -/
inductive Instr
  /-- NOP, $12 (R236) -/
  | nop
  /-- SYNC, $13 (R296) -/
  | sync
  /-- DAA, $19 (R235) -/
  | daa
  /-- ABX, $3A (R231) -/
  | abx
  /-- RTI, $3B (R294) -/
  | rti
  /-- SWI, $3F (R291) -/
  | swi
  /-- SWI2, $10 $3F (R292) -/
  | swi2
  /-- SWI3, $11 $3F (R293) -/
  | swi3
  /-- ASRA, $47 (R233) -/
  | asra
  /-- CLRB, $5F (R234) -/
  | clrb
  /-- CWAI #imm, $3C (R295) -/
  | cwai (imm : Byte)
  /-- ASL <lo, direct, $08 (R232, R126) -/
  | aslDir (lo : Byte)
  /-- ASL indexed, $68 (R232, R151) -/
  | aslIdx (ix : Indexed)
  /-- ASL addr, extended, $78 (R232, R124) -/
  | aslExt (addr : Word)
  /-- LDA #v, immediate, $86 (R201, R123) -/
  | ldaImm (v : Byte)
  /-- LDA <lo, direct, $96 (R201, R126) -/
  | ldaDir (lo : Byte)
  /-- LDA indexed, $A6 (R201, R151) -/
  | ldaIdx (ix : Indexed)
  /-- LDA addr, extended, $B6 (R201, R124) -/
  | ldaExt (addr : Word)
  /-- LDB #v, immediate, $C6 (R202, R123) -/
  | ldbImm (v : Byte)
  /-- LDB <lo, direct, $D6 (R202, R126) -/
  | ldbDir (lo : Byte)
  /-- LDB indexed, $E6 (R202, R151) -/
  | ldbIdx (ix : Indexed)
  /-- LDB addr, extended, $F6 (R202, R124) -/
  | ldbExt (addr : Word)
  /-- LDD #v, immediate, $CC (R203, R123) -/
  | lddImm (v : Word)
  /-- LDD <lo, direct, $DC (R203, R126) -/
  | lddDir (lo : Byte)
  /-- LDD indexed, $EC (R203, R151) -/
  | lddIdx (ix : Indexed)
  /-- LDD addr, extended, $FC (R203, R124) -/
  | lddExt (addr : Word)
  /-- LDX #v, immediate, $8E (R204, R123) -/
  | ldxImm (v : Word)
  /-- LDX <lo, direct, $9E (R204, R126) -/
  | ldxDir (lo : Byte)
  /-- LDX indexed, $AE (R204, R151) -/
  | ldxIdx (ix : Indexed)
  /-- LDX addr, extended, $BE (R204, R124) -/
  | ldxExt (addr : Word)
  /-- LDY #v, immediate, $10 $8E (R205, R123) -/
  | ldyImm (v : Word)
  /-- LDY <lo, direct, $10 $9E (R205, R126) -/
  | ldyDir (lo : Byte)
  /-- LDY indexed, $10 $AE (R205, R151) -/
  | ldyIdx (ix : Indexed)
  /-- LDY addr, extended, $10 $BE (R205, R124) -/
  | ldyExt (addr : Word)
  /-- LDU #v, immediate, $CE (R206, R123) -/
  | lduImm (v : Word)
  /-- LDU <lo, direct, $DE (R206, R126) -/
  | lduDir (lo : Byte)
  /-- LDU indexed, $EE (R206, R151) -/
  | lduIdx (ix : Indexed)
  /-- LDU addr, extended, $FE (R206, R124) -/
  | lduExt (addr : Word)
  /-- STD <lo, direct, $DD (R207, R126) -/
  | stdDir (lo : Byte)
  /-- STD indexed, $ED (R207, R151) -/
  | stdIdx (ix : Indexed)
  /-- STD addr, extended, $FD (R207, R124) -/
  | stdExt (addr : Word)
  /-- STX <lo, direct, $9F (R208, R126) -/
  | stxDir (lo : Byte)
  /-- STX indexed, $AF (R208, R151) -/
  | stxIdx (ix : Indexed)
  /-- STX addr, extended, $BF (R208, R124) -/
  | stxExt (addr : Word)
  /-- STU <lo, direct, $DF (R209, R126) -/
  | stuDir (lo : Byte)
  /-- STU indexed, $EF (R209, R151) -/
  | stuIdx (ix : Indexed)
  /-- STU addr, extended, $FF (R209, R124) -/
  | stuExt (addr : Word)
  /-- LEAX, indexed only, $30 (R210) -/
  | leax (ix : Indexed)
  /-- EXG r1,r2, $1E (R257) -/
  | exg (r1 : Reg) (r2 : Reg)
  /-- TFR r1,r2, source first, $1F (R256) -/
  | tfr (r1 : Reg) (r2 : Reg)
  /-- PSHS list, $34; the list is the register postbyte of R96 (R258) -/
  | pshs (list : Byte)
  /-- PULU list, $37; the list is the register postbyte of R96 (R259) -/
  | pulu (list : Byte)
  /-- BEQ, short, $27 (R273) -/
  | beq (off : Byte)
  /-- BGT, short, $2E (R274) -/
  | bgt (off : Byte)
  /-- LBEQ, long, $10 $27 (R275) -/
  | lbeq (off : Word)
  /-- LBGT, long, $10 $2E (R276) -/
  | lbgt (off : Word)
  /-- The postbyte form `n,R`, 5-bit offset, postbyte `0RRnnnnn` (R161) -/
  | pbOff5 (r : PtrReg) (n : BitVec 5)
  /-- The postbyte form `,R+`, postbyte `1RR00000` (R165) -/
  | pbInc1 (r : PtrReg)
  /-- The postbyte form `,R++`, postbyte `1RR00001` (R165) -/
  | pbInc2 (r : PtrReg)
  /-- The postbyte form `[,R++]`, postbyte `1RR10001` (R165, R176) -/
  | pbInc2Ind (r : PtrReg)
  /-- The postbyte form `,-R`, postbyte `1RR00010` (R167) -/
  | pbDec1 (r : PtrReg)
  /-- The postbyte form `,--R`, postbyte `1RR00011` (R167) -/
  | pbDec2 (r : PtrReg)
  /-- The postbyte form `[,--R]`, postbyte `1RR10011` (R167, R176) -/
  | pbDec2Ind (r : PtrReg)
  /-- The postbyte form `,R`, postbyte `1RR00100` (R160) -/
  | pbZero (r : PtrReg)
  /-- The postbyte form `[,R]`, postbyte `1RR10100` (R160, R176) -/
  | pbZeroInd (r : PtrReg)
  /-- The postbyte form `B,R`, postbyte `1RR00101` (R164) -/
  | pbAccB (r : PtrReg)
  /-- The postbyte form `[B,R]`, postbyte `1RR10101` (R164, R176) -/
  | pbAccBInd (r : PtrReg)
  /-- The postbyte form `A,R`, postbyte `1RR00110` (R164) -/
  | pbAccA (r : PtrReg)
  /-- The postbyte form `[A,R]`, postbyte `1RR10110` (R164, R176) -/
  | pbAccAInd (r : PtrReg)
  /-- The postbyte form `n,R`, 8-bit offset, postbyte `1RR01000` (R162) -/
  | pbOff8 (r : PtrReg) (n : Byte)
  /-- The postbyte form `[n,R]`, 8-bit offset, postbyte `1RR11000` (R162, R176) -/
  | pbOff8Ind (r : PtrReg) (n : Byte)
  /-- The postbyte form `n,R`, 16-bit offset, postbyte `1RR01001` (R163) -/
  | pbOff16 (r : PtrReg) (n : Word)
  /-- The postbyte form `[n,R]`, 16-bit offset, postbyte `1RR11001` (R163, R176) -/
  | pbOff16Ind (r : PtrReg) (n : Word)
  /-- The postbyte form `D,R`, postbyte `1RR01011` (R164) -/
  | pbAccD (r : PtrReg)
  /-- The postbyte form `[D,R]`, postbyte `1RR11011` (R164, R176) -/
  | pbAccDInd (r : PtrReg)
  /-- The postbyte form `n,PCR`, 8-bit offset, postbyte `1xx01100` (R172) -/
  | pbPcr8 (n : Byte)
  /-- The postbyte form `[n,PCR]`, 8-bit offset, postbyte `1xx11100` (R172, R176) -/
  | pbPcr8Ind (n : Byte)
  /-- The postbyte form `n,PCR`, 16-bit offset, postbyte `1xx01101` (R172) -/
  | pbPcr16 (n : Word)
  /-- The postbyte form `[n,PCR]`, 16-bit offset, postbyte `1xx11101` (R172, R176) -/
  | pbPcr16Ind (n : Word)
  /-- The postbyte form `[n]`, extended indirect, postbyte `1xx11111` (R175) -/
  | pbExtInd (n : Word)
  deriving DecidableEq, Repr

end Sys2Proof
end

