-- ==== Sys2Proof/WellFormed.lean ====
section
/-! DEFINITION. Which terms of `Instr` are instructions the machine can meet. Three checks:
the two registers of TFR, and of EXG, have one width (spec/30_encoding.md R95), and a bare indexed
postbyte is no instruction (R80, R86). -/

namespace Sys2Proof

/-- Whether a register of a TFR or EXG postbyte is 16 bits wide (the table of R95). -/
def Reg.isWide : Reg → Bool
  | .d | .x | .y | .u | .s | .pc => true
  | .a | .b | .cc | .dp => false

/-- The two registers of a TFR or EXG postbyte have one width (R95, D16). -/
def Reg.sameWidth (r1 r2 : Reg) : Bool := r1.isWide == r2.isWide

/-- Whether the term stands for a row of the opcode map, not for a bare indexed postbyte (R80, R97;
log 13). -/
def Instr.isOpcodeRow : Instr → Bool
  | .nop | .sync | .daa | .abx | .rti | .swi | .swi2 | .swi3 | .asra | .clrb | .cwai _
  | .aslDir _ | .aslIdx _ | .aslExt _ | .ldaImm _ | .ldaDir _ | .ldaIdx _ | .ldaExt _
  | .ldbImm _ | .ldbDir _ | .ldbIdx _ | .ldbExt _ | .lddImm _ | .lddDir _ | .lddIdx _
  | .lddExt _ | .ldxImm _ | .ldxDir _ | .ldxIdx _ | .ldxExt _ | .ldyImm _ | .ldyDir _
  | .ldyIdx _ | .ldyExt _ | .lduImm _ | .lduDir _ | .lduIdx _ | .lduExt _ | .stdDir _
  | .stdIdx _ | .stdExt _ | .stxDir _ | .stxIdx _ | .stxExt _ | .stuDir _ | .stuIdx _
  | .stuExt _ | .leax _ | .exg _ _ | .tfr _ _ | .pshs _ | .pulu _ | .beq _ | .bgt _ | .lbeq _
  | .lbgt _ => true
  | .pbOff5 _ _ | .pbInc1 _ | .pbInc2 _ | .pbInc2Ind _ | .pbDec1 _ | .pbDec2 _ | .pbDec2Ind _
  | .pbZero _ | .pbZeroInd _ | .pbAccB _ | .pbAccBInd _ | .pbAccA _ | .pbAccAInd _ | .pbOff8 _ _
  | .pbOff8Ind _ _ | .pbOff16 _ _ | .pbOff16Ind _ _ | .pbAccD _ | .pbAccDInd _ | .pbPcr8 _
  | .pbPcr8Ind _ | .pbPcr16 _ | .pbPcr16Ind _ | .pbExtInd _ => false

/-- The checks on operands: one width for the two registers of TFR and of EXG (R95). Every other
operand is legal at every value of its type. -/
def Instr.operandsOk : Instr → Bool
  | .tfr r1 r2 => Reg.sameWidth r1 r2
  | .exg r1 r2 => Reg.sameWidth r1 r2
  | .nop | .sync | .daa | .abx | .rti | .swi | .swi2 | .swi3 | .asra | .clrb | .cwai _
  | .aslDir _ | .aslIdx _ | .aslExt _ | .ldaImm _ | .ldaDir _ | .ldaIdx _ | .ldaExt _
  | .ldbImm _ | .ldbDir _ | .ldbIdx _ | .ldbExt _ | .lddImm _ | .lddDir _ | .lddIdx _
  | .lddExt _ | .ldxImm _ | .ldxDir _ | .ldxIdx _ | .ldxExt _ | .ldyImm _ | .ldyDir _
  | .ldyIdx _ | .ldyExt _ | .lduImm _ | .lduDir _ | .lduIdx _ | .lduExt _ | .stdDir _
  | .stdIdx _ | .stdExt _ | .stxDir _ | .stxIdx _ | .stxExt _ | .stuDir _ | .stuIdx _
  | .stuExt _ | .leax _ | .pshs _ | .pulu _ | .beq _ | .bgt _ | .lbeq _ | .lbgt _ | .pbOff5 _ _
  | .pbInc1 _ | .pbInc2 _ | .pbInc2Ind _ | .pbDec1 _ | .pbDec2 _ | .pbDec2Ind _ | .pbZero _
  | .pbZeroInd _ | .pbAccB _ | .pbAccBInd _ | .pbAccA _ | .pbAccAInd _ | .pbOff8 _ _
  | .pbOff8Ind _ _ | .pbOff16 _ _ | .pbOff16Ind _ _ | .pbAccD _ | .pbAccDInd _ | .pbPcr8 _
  | .pbPcr8Ind _ | .pbPcr16 _ | .pbPcr16Ind _ | .pbExtInd _ => true

/-- A well-formed instruction: an opcode row whose operands are legal. -/
def Instr.wellFormed (i : Instr) : Bool := i.isOpcodeRow && i.operandsOk

end Sys2Proof
end

