-- ==== Sys2Proof/Decode.lean ====
section
/-! DEFINITION. The decoder, total on every list of bytes and rejecting by name, the fetch of an
instruction's bytes as the decoder needs them (spec/30_encoding.md R82), and the encoder, written from
the same tables (R80 to R100). -/

namespace Sys2Proof

/-- Why bytes are no instruction. -/
inductive DecodeError
  /-- the list ends before the instruction does: more bytes are needed, nothing is wrong yet -/
  | truncated
  /-- an opcode, or a prefix and an opcode, with no row in R99 (R103) -/
  | unknownOpcode (bytes : List Byte)
  /-- an indexed postbyte that matches no row of Table 2 (R94) -/
  | illegalPostbyte (pb : Byte)
  /-- a TFR or EXG postbyte that names no register, or registers of two widths (R95) -/
  | illegalRegisterCode (pb : Byte)
  deriving DecidableEq, Repr

/-! ## The indexed postbyte (R86 to R94) -/

/-- The register the RR field selects (R86). -/
def PtrReg.ofCode : BitVec 2 → PtrReg
  | 0b00#2 => .x
  | 0b01#2 => .y
  | 0b10#2 => .u
  | _ => .s

/-- The RR field that selects a register (R86). -/
def PtrReg.code : PtrReg → BitVec 2
  | .x => 0b00#2
  | .y => 0b01#2
  | .u => 0b10#2
  | .s => 0b11#2

/-- What the low five bits of an indexed postbyte with bit 7 set call for (R89): the form, and the
bytes that follow it (R91). -/
inductive PostbyteShape
  /-- nothing follows -/
  | bare (f : Indexed)
  /-- one byte follows -/
  | byte (f : Byte → Indexed)
  /-- two bytes follow, high byte first -/
  | word (f : Word → Indexed)
  /-- no row of Table 2 (R94) -/
  | illegal

/-- The addressing mode table (R89, R100), indirect bit and mode field together (bits 4:0). -/
def postbyteShape (r : PtrReg) : BitVec 5 → PostbyteShape
  | 0b00000#5 => .bare (.inc1 r)
  | 0b00001#5 => .bare (.inc2 r)
  | 0b00010#5 => .bare (.dec1 r)
  | 0b00011#5 => .bare (.dec2 r)
  | 0b00100#5 => .bare (.zero r)
  | 0b00101#5 => .bare (.accB r)
  | 0b00110#5 => .bare (.accA r)
  | 0b01000#5 => .byte (.off8 r)
  | 0b01001#5 => .word (.off16 r)
  | 0b01011#5 => .bare (.accD r)
  | 0b01100#5 => .byte .pcr8
  | 0b01101#5 => .word .pcr16
  | 0b10001#5 => .bare (.inc2Ind r)
  | 0b10011#5 => .bare (.dec2Ind r)
  | 0b10100#5 => .bare (.zeroInd r)
  | 0b10101#5 => .bare (.accBInd r)
  | 0b10110#5 => .bare (.accAInd r)
  | 0b11000#5 => .byte (.off8Ind r)
  | 0b11001#5 => .word (.off16Ind r)
  | 0b11011#5 => .bare (.accDInd r)
  | 0b11100#5 => .byte .pcr8Ind
  | 0b11101#5 => .word .pcr16Ind
  | 0b11111#5 => .word .extInd
  | _ => .illegal

/-- Read an indexed operand: the postbyte and the bytes that follow it (R87, R89, R91, R92). -/
def decodeIndexed : List Byte → Except DecodeError (Indexed × List Byte)
  | [] => .error .truncated
  | pb :: rest =>
    let r := PtrReg.ofCode (pb.extractLsb' 5 2)
    if pb.getLsbD 7 then
      match postbyteShape r (pb.extractLsb' 0 5), rest with
      | .bare f, rest => .ok (f, rest)
      | .byte f, b :: rest => .ok (f b, rest)
      | .byte _, [] => .error .truncated
      | .word f, h :: l :: rest => .ok (f (joinBytes h l), rest)
      | .word _, _ => .error .truncated
      | .illegal, _ => .error (.illegalPostbyte pb)
    else .ok (.off5 r (pb.extractLsb' 0 5), rest)

/-! ## The register postbyte of TFR and EXG (R95) -/

/-- The register a 4-bit code names, if it names one (R95). -/
def Reg.ofCode : BitVec 4 → Option Reg
  | 0x0#4 => some .d
  | 0x1#4 => some .x
  | 0x2#4 => some .y
  | 0x3#4 => some .u
  | 0x4#4 => some .s
  | 0x5#4 => some .pc
  | 0x8#4 => some .a
  | 0x9#4 => some .b
  | 0xA#4 => some .cc
  | 0xB#4 => some .dp
  | _ => none

/-- The 4-bit code of a register (R95). -/
def Reg.code : Reg → BitVec 4
  | .d => 0x0#4
  | .x => 0x1#4
  | .y => 0x2#4
  | .u => 0x3#4
  | .s => 0x4#4
  | .pc => 0x5#4
  | .a => 0x8#4
  | .b => 0x9#4
  | .cc => 0xA#4
  | .dp => 0xB#4

/-- The postbyte of TFR and EXG: the first register's code in bits 7:4, the second's in bits 3:0 (R95). -/
def regPostbyte (r1 r2 : Reg) : Byte := r1.code ++ r2.code

/-- The two registers a TFR or EXG postbyte names, if it is legal (R95). -/
def decodeRegPair (pb : Byte) : Option (Reg × Reg) :=
  match Reg.ofCode (pb.extractLsb' 4 4), Reg.ofCode (pb.extractLsb' 0 4) with
  | some r1, some r2 => if Reg.sameWidth r1 r2 then some (r1, r2) else none
  | _, _ => none

/-! ## The opcode map (R99) -/

/-- What a row of the opcode map calls for after the opcode: the formats of R80, with the instruction
the operand makes. -/
inductive OpcodeShape
  /-- INH: nothing follows -/
  | inh (i : Instr)
  /-- IMM8: the 8-bit operand -/
  | imm8 (f : Byte → Instr)
  /-- IMM16: the 16-bit operand, high byte first -/
  | imm16 (f : Word → Instr)
  /-- DIR: the low byte of the address -/
  | dir (f : Byte → Instr)
  /-- EXT: the address, high byte first -/
  | ext (f : Word → Instr)
  /-- IDX: the indexed postbyte and what it calls for -/
  | idx (f : Indexed → Instr)
  /-- REG of TFR and EXG: two register codes -/
  | pair (f : Reg → Reg → Instr)
  /-- REG of PSHS and PULU: a register list -/
  | list (f : Byte → Instr)
  /-- REL8: a signed offset -/
  | rel8 (f : Byte → Instr)
  /-- REL16: a signed offset, high byte first -/
  | rel16 (f : Word → Instr)

/-- Read what follows the opcode (R82 step 3). -/
def decodeOperand : OpcodeShape → List Byte → Except DecodeError (Instr × List Byte)
  | .inh i, rest => .ok (i, rest)
  | .imm8 f, b :: rest | .dir f, b :: rest | .list f, b :: rest | .rel8 f, b :: rest => .ok (f b, rest)
  | .imm16 f, h :: l :: rest | .ext f, h :: l :: rest | .rel16 f, h :: l :: rest =>
    .ok (f (joinBytes h l), rest)
  | .idx f, rest =>
    match decodeIndexed rest with
    | .ok (ix, rest) => .ok (f ix, rest)
    | .error e => .error e
  | .pair f, pb :: rest =>
    match decodeRegPair pb with
    | some (r1, r2) => .ok (f r1 r2, rest)
    | none => .error (.illegalRegisterCode pb)
  | .imm8 _, [] | .dir _, [] | .list _, [] | .rel8 _, [] | .pair _, [] => .error .truncated
  | .imm16 _, _ | .ext _, _ | .rel16 _, _ => .error .truncated

/-- The opcodes with no prefix (R99). -/
def opcodePage1 : Byte → Option OpcodeShape
  | 0x08#8 => some (.dir .aslDir)
  | 0x12#8 => some (.inh .nop)
  | 0x13#8 => some (.inh .sync)
  | 0x19#8 => some (.inh .daa)
  | 0x1E#8 => some (.pair .exg)
  | 0x1F#8 => some (.pair .tfr)
  | 0x27#8 => some (.rel8 .beq)
  | 0x2E#8 => some (.rel8 .bgt)
  | 0x30#8 => some (.idx .leax)
  | 0x34#8 => some (.list .pshs)
  | 0x37#8 => some (.list .pulu)
  | 0x3A#8 => some (.inh .abx)
  | 0x3B#8 => some (.inh .rti)
  | 0x3C#8 => some (.imm8 .cwai)
  | 0x3F#8 => some (.inh .swi)
  | 0x47#8 => some (.inh .asra)
  | 0x5F#8 => some (.inh .clrb)
  | 0x68#8 => some (.idx .aslIdx)
  | 0x78#8 => some (.ext .aslExt)
  | 0x86#8 => some (.imm8 .ldaImm)
  | 0x8E#8 => some (.imm16 .ldxImm)
  | 0x96#8 => some (.dir .ldaDir)
  | 0x9E#8 => some (.dir .ldxDir)
  | 0x9F#8 => some (.dir .stxDir)
  | 0xA6#8 => some (.idx .ldaIdx)
  | 0xAE#8 => some (.idx .ldxIdx)
  | 0xAF#8 => some (.idx .stxIdx)
  | 0xB6#8 => some (.ext .ldaExt)
  | 0xBE#8 => some (.ext .ldxExt)
  | 0xBF#8 => some (.ext .stxExt)
  | 0xC6#8 => some (.imm8 .ldbImm)
  | 0xCC#8 => some (.imm16 .lddImm)
  | 0xCE#8 => some (.imm16 .lduImm)
  | 0xD6#8 => some (.dir .ldbDir)
  | 0xDC#8 => some (.dir .lddDir)
  | 0xDD#8 => some (.dir .stdDir)
  | 0xDE#8 => some (.dir .lduDir)
  | 0xDF#8 => some (.dir .stuDir)
  | 0xE6#8 => some (.idx .ldbIdx)
  | 0xEC#8 => some (.idx .lddIdx)
  | 0xED#8 => some (.idx .stdIdx)
  | 0xEE#8 => some (.idx .lduIdx)
  | 0xEF#8 => some (.idx .stuIdx)
  | 0xF6#8 => some (.ext .ldbExt)
  | 0xFC#8 => some (.ext .lddExt)
  | 0xFD#8 => some (.ext .stdExt)
  | 0xFE#8 => some (.ext .lduExt)
  | 0xFF#8 => some (.ext .stuExt)
  | _ => none

/-- The opcodes after the prefix $10 (R81, R99). -/
def opcodePage2 : Byte → Option OpcodeShape
  | 0x27#8 => some (.rel16 .lbeq)
  | 0x2E#8 => some (.rel16 .lbgt)
  | 0x3F#8 => some (.inh .swi2)
  | 0x8E#8 => some (.imm16 .ldyImm)
  | 0x9E#8 => some (.dir .ldyDir)
  | 0xAE#8 => some (.idx .ldyIdx)
  | 0xBE#8 => some (.ext .ldyExt)
  | _ => none

/-- The opcodes after the prefix $11 (R81, R99). -/
def opcodePage3 : Byte → Option OpcodeShape
  | 0x3F#8 => some (.inh .swi3)
  | _ => none

/-- Look the opcode up in its page, then read its operand; an opcode with no row is refused with the
bytes that made it (R82, R103). -/
def decodeRow (opcode : List Byte) (row : Option OpcodeShape) (rest : List Byte) :
    Except DecodeError (Instr × List Byte) :=
  match row with
  | some shape => decodeOperand shape rest
  | none => .error (.unknownOpcode opcode)

/-- The decoder (R82): the instruction the bytes begin with, and the bytes after it. -/
def decode : List Byte → Except DecodeError (Instr × List Byte)
  | [] => .error .truncated
  | b0 :: rest =>
    if b0 = 0x10#8 then
      match rest with
      | [] => .error .truncated
      | b1 :: rest => decodeRow [b0, b1] (opcodePage2 b1) rest
    else if b0 = 0x11#8 then
      match rest with
      | [] => .error .truncated
      | b1 :: rest => decodeRow [b0, b1] (opcodePage3 b1) rest
    else decodeRow [b0] (opcodePage1 b0) rest

/-- The length in bytes of the longest instruction (R80: prefix, opcode, postbyte, 16-bit offset). -/
def maxInstrBytes : Nat := 5

/-! ## The encoder -/

/-- A 16-bit field of an instruction, high byte first (R54). -/
def wordBytes (w : Word) : List Byte := [highByte w, lowByte w]

/-- The indexed postbyte with bit 7 set: `1`, the RR field, then bits 4:0 (R86). -/
def postbyte (rr : BitVec 2) (low : BitVec 5) : Byte := 1#1 ++ rr ++ low

/-- An indexed operand's bytes, the postbyte first (R89 to R92). The don't-care bits are 0 (R93). -/
def encodeIndexed : Indexed → List Byte
  | .off5 r n => [0#1 ++ r.code ++ n]
  | .inc1 r => [postbyte r.code 0b00000#5]
  | .inc2 r => [postbyte r.code 0b00001#5]
  | .inc2Ind r => [postbyte r.code 0b10001#5]
  | .dec1 r => [postbyte r.code 0b00010#5]
  | .dec2 r => [postbyte r.code 0b00011#5]
  | .dec2Ind r => [postbyte r.code 0b10011#5]
  | .zero r => [postbyte r.code 0b00100#5]
  | .zeroInd r => [postbyte r.code 0b10100#5]
  | .accB r => [postbyte r.code 0b00101#5]
  | .accBInd r => [postbyte r.code 0b10101#5]
  | .accA r => [postbyte r.code 0b00110#5]
  | .accAInd r => [postbyte r.code 0b10110#5]
  | .off8 r n => postbyte r.code 0b01000#5 :: [n]
  | .off8Ind r n => postbyte r.code 0b11000#5 :: [n]
  | .off16 r n => postbyte r.code 0b01001#5 :: wordBytes n
  | .off16Ind r n => postbyte r.code 0b11001#5 :: wordBytes n
  | .accD r => [postbyte r.code 0b01011#5]
  | .accDInd r => [postbyte r.code 0b11011#5]
  | .pcr8 n => postbyte 0b00#2 0b01100#5 :: [n]
  | .pcr8Ind n => postbyte 0b00#2 0b11100#5 :: [n]
  | .pcr16 n => postbyte 0b00#2 0b01101#5 :: wordBytes n
  | .pcr16Ind n => postbyte 0b00#2 0b11101#5 :: wordBytes n
  | .extInd n => postbyte 0b00#2 0b11111#5 :: wordBytes n

/-- An instruction's bytes in fetch order (R80, R99): opcode, postbyte, operand. A bare postbyte row
is encoded as the postbyte and what follows it (log 13). -/
def encode : Instr → List Byte
  | .nop => [0x12#8]
  | .sync => [0x13#8]
  | .daa => [0x19#8]
  | .abx => [0x3A#8]
  | .rti => [0x3B#8]
  | .swi => [0x3F#8]
  | .swi2 => [0x10#8, 0x3F#8]
  | .swi3 => [0x11#8, 0x3F#8]
  | .asra => [0x47#8]
  | .clrb => [0x5F#8]
  | .cwai imm => [0x3C#8, imm]
  | .aslDir lo => [0x08#8, lo]
  | .aslIdx ix => [0x68#8] ++ encodeIndexed ix
  | .aslExt addr => [0x78#8] ++ wordBytes addr
  | .ldaImm v => [0x86#8, v]
  | .ldaDir lo => [0x96#8, lo]
  | .ldaIdx ix => [0xA6#8] ++ encodeIndexed ix
  | .ldaExt addr => [0xB6#8] ++ wordBytes addr
  | .ldbImm v => [0xC6#8, v]
  | .ldbDir lo => [0xD6#8, lo]
  | .ldbIdx ix => [0xE6#8] ++ encodeIndexed ix
  | .ldbExt addr => [0xF6#8] ++ wordBytes addr
  | .lddImm v => [0xCC#8] ++ wordBytes v
  | .lddDir lo => [0xDC#8, lo]
  | .lddIdx ix => [0xEC#8] ++ encodeIndexed ix
  | .lddExt addr => [0xFC#8] ++ wordBytes addr
  | .ldxImm v => [0x8E#8] ++ wordBytes v
  | .ldxDir lo => [0x9E#8, lo]
  | .ldxIdx ix => [0xAE#8] ++ encodeIndexed ix
  | .ldxExt addr => [0xBE#8] ++ wordBytes addr
  | .ldyImm v => [0x10#8, 0x8E#8] ++ wordBytes v
  | .ldyDir lo => [0x10#8, 0x9E#8, lo]
  | .ldyIdx ix => [0x10#8, 0xAE#8] ++ encodeIndexed ix
  | .ldyExt addr => [0x10#8, 0xBE#8] ++ wordBytes addr
  | .lduImm v => [0xCE#8] ++ wordBytes v
  | .lduDir lo => [0xDE#8, lo]
  | .lduIdx ix => [0xEE#8] ++ encodeIndexed ix
  | .lduExt addr => [0xFE#8] ++ wordBytes addr
  | .stdDir lo => [0xDD#8, lo]
  | .stdIdx ix => [0xED#8] ++ encodeIndexed ix
  | .stdExt addr => [0xFD#8] ++ wordBytes addr
  | .stxDir lo => [0x9F#8, lo]
  | .stxIdx ix => [0xAF#8] ++ encodeIndexed ix
  | .stxExt addr => [0xBF#8] ++ wordBytes addr
  | .stuDir lo => [0xDF#8, lo]
  | .stuIdx ix => [0xEF#8] ++ encodeIndexed ix
  | .stuExt addr => [0xFF#8] ++ wordBytes addr
  | .leax ix => [0x30#8] ++ encodeIndexed ix
  | .exg r1 r2 => [0x1E#8, regPostbyte r1 r2]
  | .tfr r1 r2 => [0x1F#8, regPostbyte r1 r2]
  | .pshs list => [0x34#8, list]
  | .pulu list => [0x37#8, list]
  | .beq off => [0x27#8, off]
  | .bgt off => [0x2E#8, off]
  | .lbeq off => [0x10#8, 0x27#8] ++ wordBytes off
  | .lbgt off => [0x10#8, 0x2E#8] ++ wordBytes off
  | .pbOff5 r n => encodeIndexed (.off5 r n)
  | .pbInc1 r => encodeIndexed (.inc1 r)
  | .pbInc2 r => encodeIndexed (.inc2 r)
  | .pbInc2Ind r => encodeIndexed (.inc2Ind r)
  | .pbDec1 r => encodeIndexed (.dec1 r)
  | .pbDec2 r => encodeIndexed (.dec2 r)
  | .pbDec2Ind r => encodeIndexed (.dec2Ind r)
  | .pbZero r => encodeIndexed (.zero r)
  | .pbZeroInd r => encodeIndexed (.zeroInd r)
  | .pbAccB r => encodeIndexed (.accB r)
  | .pbAccBInd r => encodeIndexed (.accBInd r)
  | .pbAccA r => encodeIndexed (.accA r)
  | .pbAccAInd r => encodeIndexed (.accAInd r)
  | .pbOff8 r n => encodeIndexed (.off8 r n)
  | .pbOff8Ind r n => encodeIndexed (.off8Ind r n)
  | .pbOff16 r n => encodeIndexed (.off16 r n)
  | .pbOff16Ind r n => encodeIndexed (.off16Ind r n)
  | .pbAccD r => encodeIndexed (.accD r)
  | .pbAccDInd r => encodeIndexed (.accDInd r)
  | .pbPcr8 n => encodeIndexed (.pcr8 n)
  | .pbPcr8Ind n => encodeIndexed (.pcr8Ind n)
  | .pbPcr16 n => encodeIndexed (.pcr16 n)
  | .pbPcr16Ind n => encodeIndexed (.pcr16Ind n)
  | .pbExtInd n => encodeIndexed (.extInd n)

/-! ## Table 2's adders (R90, R91, R371) -/

/-- Table 2's `+#`: the bytes a form takes after the postbyte (R91). -/
def Indexed.extraBytes : Indexed → Nat
  | .off5 _ _ | .inc1 _ | .inc2 _ | .inc2Ind _ | .dec1 _ | .dec2 _ | .dec2Ind _ | .zero _
  | .zeroInd _ | .accB _ | .accBInd _ | .accA _ | .accAInd _ | .accD _ | .accDInd _ => 0
  | .off8 _ _ | .off8Ind _ _ | .pcr8 _ | .pcr8Ind _ => 1
  | .off16 _ _ | .off16Ind _ _ | .pcr16 _ | .pcr16Ind _ | .extInd _ => 2

/-- Table 2's `+~`: the cycles a form adds to the instruction's basic count, which the spec does not
give. Recorded from R371; no rule depends on it (R370; log 20). -/
def Indexed.extraCycles : Indexed → Nat
  | .zero _ => 0
  | .off5 _ _ | .accB _ | .accA _ | .off8 _ _ | .pcr8 _ => 1
  | .inc1 _ | .dec1 _ => 2
  | .inc2 _ | .dec2 _ | .zeroInd _ => 3
  | .accBInd _ | .accAInd _ | .off8Ind _ _ | .off16 _ _ | .accD _ | .pcr8Ind _ => 4
  | .pcr16 _ | .extInd _ => 5
  | .inc2Ind _ | .dec2Ind _ => 6
  | .off16Ind _ _ | .accDInd _ => 7
  | .pcr16Ind _ => 8

/-! ## The table's words -/

/-- The bytes of an instruction whose bits are `w`, bit 0 the least significant bit of the first byte;
`n` bytes of them. -/
def bytesOfBits : Nat → Nat → List Byte
  | 0, _ => []
  | n + 1, w => BitVec.ofNat 8 w :: bytesOfBits n (w / 256)

/-- The bytes of a table word of `nbits` bits, in fetch order, up to the longest instruction; every bit
above `nbits` is 0. -/
def tableWordBytes (nbits w : Nat) : List Byte := bytesOfBits maxInstrBytes (w % 2 ^ nbits)

/-- The instruction the decoder reads from a table word (none where it refuses). -/
def decodeTableWord (nbits w : Nat) : Option Instr :=
  match decode (tableWordBytes nbits w) with
  | .ok (i, _) => some i
  | .error _ => none

end Sys2Proof
end

