-- ==== Sys2Proof/Machine/Flags.lean ====
section
/-! DEFINITION. The condition code register and every flag computation (spec/10_state.md R27, R28). -/

namespace Sys2Proof.Machine

/-- The eight fields of CC (R27). -/
inductive Flag
  | c | v | z | n | i | h | f | e
  deriving DecidableEq, Repr

/-- The bit of CC that holds a flag (R27). -/
def Flag.bit : Flag → Nat
  | .c => 0
  | .v => 1
  | .z => 2
  | .n => 3
  | .i => 4
  | .h => 5
  | .f => 6
  | .e => 7

/-- The byte with a flag's bit alone set. -/
def Flag.mask (fl : Flag) : Byte := 0x01#8 <<< fl.bit

/-- The value of a flag in a CC byte. -/
def getFlag (cc : Byte) (fl : Flag) : Bool := cc.getLsbD fl.bit

/-- A CC byte with one flag replaced, the other seven kept. -/
def putFlag (fl : Flag) (v : Bool) (cc : Byte) : Byte :=
  if v then cc ||| fl.mask else cc &&& ~~~fl.mask

/-- N and Z from an 8-bit value (`SetNZ8`, R211). -/
def setNZ8 (v : Byte) (cc : Byte) : Byte := putFlag .z (v == 0x00#8) (putFlag .n v.msb cc)

/-- N and Z from a 16-bit value (`SetNZ16`, R211). -/
def setNZ16 (v : Word) (cc : Byte) : Byte := putFlag .z (v == 0x0000#16) (putFlag .n v.msb cc)

/-- The flags of an 8-bit load or store: N and Z from the value, V cleared (R211). -/
def moveFlags8 (v : Byte) (cc : Byte) : Byte := putFlag .v false (setNZ8 v cc)

/-- The flags of a 16-bit load or store: N and Z from the value, V cleared (R211). -/
def moveFlags16 (v : Word) (cc : Byte) : Byte := putFlag .v false (setNZ16 v cc)

/-- The flag of LEAX: Z from the address (R210). -/
def leaFlags (ea : Word) (cc : Byte) : Byte := putFlag .z (ea == 0x0000#16) cc

/-- The result of ASL: the byte doubled modulo 2^8 (R232). -/
def aslResult (m : Byte) : Byte := m <<< 1

/-- The flags of ASL on the byte `m`: C its bit 7, N and Z from the result, V its bits 7 and 6 unlike;
H the free bit (R232, D14). -/
def aslFlags (m : Byte) (free : Bool) (cc : Byte) : Byte :=
  putFlag .h free
    (putFlag .v (m.getLsbD 7 ^^ m.getLsbD 6) (setNZ8 (aslResult m) (putFlag .c (m.getLsbD 7) cc)))

/-- The result of ASRA: bit 7 kept, the others one place right (R233). -/
def asrResult (a : Byte) : Byte := a.sshiftRight 1

/-- The flags of ASRA on A = `a`: C its bit 0, N and Z from the result, V kept; H the free bit (R233,
D14). -/
def asrFlags (a : Byte) (free : Bool) (cc : Byte) : Byte :=
  putFlag .h free (setNZ8 (asrResult a) (putFlag .c (a.getLsbD 0) cc))

/-- The flags of CLRB: N = 0, Z = 1, V = 0, C = 0 (R234). -/
def clrFlags (cc : Byte) : Byte :=
  putFlag .c false (putFlag .v false (putFlag .z true (putFlag .n false cc)))

/-- The correction DAA adds to A: $06 for the low digit, $60 for the high one (R235). -/
def daaCorrection (a : Byte) (h c : Bool) : Byte :=
  let lsn := (a.extractLsb' 0 4).toNat
  let msn := (a.extractLsb' 4 4).toNat
  (if h || decide (9 < lsn) then 0x06#8 else 0x00#8) +
    (if c || decide (9 < msn) || (decide (8 < msn) && decide (9 < lsn)) then 0x60#8 else 0x00#8)

/-- DAA's 9-bit sum of A and the correction (R235). -/
def daaSum (a : Byte) (h c : Bool) : BitVec 9 := a.setWidth 9 + (daaCorrection a h c).setWidth 9

/-- The result of DAA: the low 8 bits of the sum (R235). -/
def daaResult (a : Byte) (h c : Bool) : Byte := (daaSum a h c).setWidth 8

/-- The flags of DAA: N and Z from the result, C kept set or set by the carry out; V the free bit
(R235, D14). -/
def daaFlags (a : Byte) (free : Bool) (cc : Byte) : Byte :=
  let h := getFlag cc .h
  let c := getFlag cc .c
  putFlag .v free (putFlag .c (c || (daaSum a h c).getLsbD 8) (setNZ8 (daaResult a h c) cc))

/-- The condition of BEQ and LBEQ: Z = 1 (R272). -/
def condEq (cc : Byte) : Bool := getFlag cc .z

/-- The condition of BGT and LBGT: Z = 0 and N = V (R272). -/
def condGt (cc : Byte) : Bool := !getFlag cc .z && (getFlag cc .n == getFlag cc .v)

end Sys2Proof.Machine
end

