-- ==== Sys2Proof/Config.lean ====
section
/-! DEFINITION. What is fixed for the machine (the vector table, what a byte of memory reads as before
anything wrote it) and the values the spec leaves free (the parameter `Draw`, spec/00_scope.md R7, R10). -/

namespace Sys2Proof.Config

/-- The parameter `Draw`: the n-th free bit (`draw_1()`, R10, D14). No value is chosen: the constant has
no body. DESIGN CHOICE, safe (log 11). -/
opaque freeBit : Nat → Bool

/-- The parameter `Draw`: the n-th free byte (the answer of an open bus, R61; a register after a RESET in
mid-run, R351). DESIGN CHOICE, safe (log 9, log 11, log 16). -/
opaque freeByte : Nat → Byte

/-- The parameter `Draw`: the n-th free 16-bit value (a pointer register after a RESET in mid-run,
R351). DESIGN CHOICE, safe (log 11, log 16). -/
opaque freeWord : Nat → Word

/-- The parameter `Draw`: the n-th free number, for a device whose functions leave something open (R61).
DESIGN CHOICE, safe (log 8, log 11). -/
opaque freeNat : Nat → Nat

/-- What a byte of memory that nothing has written reads as. The spec gives no contents (R35, U7).
DESIGN CHOICE, unsafe (log 6). -/
def unwrittenByte : Byte := 0x00#8

/-- Address of the RESET vector (R62, R312). -/
def vectorReset : Word := 0xFFFE#16
/-- Address of the NMI vector (R62, R312). -/
def vectorNmi : Word := 0xFFFC#16
/-- Address of the SWI vector (R62, R312). -/
def vectorSwi : Word := 0xFFFA#16
/-- Address of the IRQ vector (R62, R312). -/
def vectorIrq : Word := 0xFFF8#16
/-- Address of the FIRQ vector (R62, R312). -/
def vectorFirq : Word := 0xFFF6#16
/-- Address of the SWI2 vector (R62, R312). -/
def vectorSwi2 : Word := 0xFFF4#16
/-- Address of the SWI3 vector (R62, R312). -/
def vectorSwi3 : Word := 0xFFF2#16

end Sys2Proof.Config
end

