-- ==== Sys2Proof/Machine/State.lean ====
section
/-! DEFINITION. The machine's state as plain data, its reset value, and the reasons a step can stop
(spec/10_state.md R20 to R36; spec/00_scope.md R7; spec/70_reset_and_hazards.md R351). -/

namespace Sys2Proof.Machine

/-- Memory: the cells whose byte differs from what an unlisted address reads as, addresses strictly
rising (log 6). -/
abbrev Memory := List Host.Cell

/-! ## MemMap (R7, R61, D8) -/

/-- The two-operand operations of a device's functions, on natural numbers. -/
inductive DeviceOp
  | add | sub | mul | div | mod | and | or | xor
  deriving DecidableEq, Repr

/-- What a device's functions compute, as plain data (log 8). -/
inductive DeviceExpr
  /-- a constant -/
  | lit (n : Nat)
  /-- a register of the device as it was before the access; 0 where it has none of that number -/
  | reg (k : Nat)
  /-- the address accessed -/
  | addr
  /-- the byte written; 0 in a read -/
  | data
  /-- a value of `Draw`, one for each access: the device may do anything here -/
  | free
  | op (o : DeviceOp) (l r : DeviceExpr)
  /-- `yes` where `l ≤ r`, else `no` -/
  | ifLe (l r yes no : DeviceExpr)
  deriving DecidableEq, Repr

/-- A device: its read function (the byte it answers, and the registers the read changes) and its write
function (the registers a write changes), R61. `number` says which of the state's device registers are
its own; the devices of several regions may be one. -/
structure Device where
  number : Nat
  readValue : DeviceExpr
  onRead : List (Nat × DeviceExpr)
  onWrite : List (Nat × DeviceExpr)
  deriving DecidableEq, Repr

/-- What `MemMap` may place at an address (R7, R61, D8). -/
inductive RegionKind
  /-- reads return the last byte written -/
  | ram
  /-- reads return the fixed contents; a write changes nothing -/
  | rom
  /-- a device with its read and write functions (log 8) -/
  | device (d : Device)
  /-- no answer: an access raises the fault `unmapped` (log 9) -/
  | unmapped
  /-- unmapped, but answering a read with a draw (R61 allows `MemMap` either); a write is lost (log 9) -/
  | openBus
  deriving DecidableEq, Repr

/-- A range of the address space and what `MemMap` places there. -/
structure Region where
  base : Nat
  size : Nat
  kind : RegionKind
  deriving DecidableEq, Repr

/-- What `Env` supplies before one step (R315): three levels and whether NMI saw a negative edge. -/
structure EnvInput where
  reset : Bool
  firq : Bool
  irq : Bool
  nmiEdge : Bool
  deriving DecidableEq, Repr

/-- No input asserted. -/
def EnvInput.idle : EnvInput := { reset := false, firq := false, irq := false, nmiEdge := false }

/-- The hidden run state (R33). -/
inductive RunState
  | running
  /-- after SYNC, until an interrupt input is asserted (R296) -/
  | syncWait
  /-- after CWAI has stacked the state, until an unmasked interrupt is taken (R295) -/
  | cwaiWait
  deriving DecidableEq, Repr

/-- The state of the MPU (R20), with the parameters `MemMap` and `Env` (R7) and the model's count of
the draws taken. -/
structure State where
  /-- accumulator A (R21), the high byte of D (R22) -/
  a : Byte
  /-- accumulator B (R21), the low byte of D (R22) -/
  b : Byte
  /-- pointer register X (R23) -/
  x : Word
  /-- pointer register Y (R23) -/
  y : Word
  /-- user stack pointer U (R24) -/
  u : Word
  /-- hardware stack pointer S (R24) -/
  s : Word
  /-- program counter (R26) -/
  pc : Word
  /-- direct page register (R29) -/
  dp : Byte
  /-- condition codes E F H I N Z V C, bit 7 to bit 0 (R27) -/
  cc : Byte
  /-- NMI is recognised (R33, R318) -/
  nmiArmed : Bool
  /-- an NMI edge is waiting to be taken (R33, R317) -/
  nmiPending : Bool
  /-- running, or which wait (R33) -/
  runState : RunState
  /-- the holding register of the effective address (R32, R180); no instruction reads what another
  left in it (log 12) -/
  temp : Word
  /-- the contents of memory (R50) -/
  mem : Memory
  /-- the parameter `MemMap` (R7, R61): the first region that holds an address says its kind, an
  address in no region is RAM (log 7) -/
  map : List Region
  /-- the state of the devices `MemMap` places (R61): the registers of device 0, device 1, ... (log 8) -/
  devices : List (List Nat)
  /-- the parameter `Env` (R7, R315): the inputs of the steps to come, nothing asserted after the
  last (log 10) -/
  env : List EnvInput
  /-- the model's own: how many values of `Draw` have been taken (log 11) -/
  draws : Nat
  deriving DecidableEq, Repr

/-- Why the model stops with a fault. The hardware itself raises none (R311). -/
inductive Fault
  /-- An access to an address `MemMap` marks unmapped (R61, R314), raised by every read and write of
  memory, instruction fetch and vector fetch included. Safe: the hardware goes on. -/
  | unmapped (addr : Word)
  /-- An indexed postbyte in no row of Table 2 (R94, R184), raised by the fetch of an instruction
  before any write. Safe: the hardware does something undocumented. -/
  | illegalPostbyte (pb : Byte)
  deriving DecidableEq, Repr

/-- Why the model gives an encoding no meaning. -/
inductive Refusal
  /-- An instruction with no meaning in this model yet; no arm of `exec` raises it. Safe. -/
  | notModelled (mnemonic : String)
  /-- An opcode with no row in R99 (R103, D13), raised by the fetch of an instruction. Safe. -/
  | unknownOpcode (bytes : List Byte)
  /-- A TFR or EXG postbyte that names no register or mixes widths (R95, R256, R257, D16), raised by
  the fetch and by the two meanings. Safe. -/
  | illegalRegisterCode (pb : Byte)
  deriving DecidableEq, Repr

/-- The machine right after reset (R35, R351) with nothing placed in memory: DP = $00, F = I = 1, NMI
disarmed, Running, PC the word at $FFFE, which reads $0000 here (log 5). A, B, X, Y, U, S and the other
six bits of CC, which the spec leaves unspecified, are 0: DESIGN CHOICE, unsafe (log 2, log 3). MemMap is
all RAM, with no device (log 7, log 8). -/
def State.reset : State where
  a := 0x00#8
  b := 0x00#8
  x := 0x0000#16
  y := 0x0000#16
  u := 0x0000#16
  s := 0x0000#16
  pc := 0x0000#16
  dp := 0x00#8
  cc := 0x50#8
  nmiArmed := false
  nmiPending := false
  runState := .running
  temp := 0x0000#16
  mem := []
  map := []
  devices := []
  env := []
  draws := 0

end Sys2Proof.Machine
end

