-- ==== Sys2Proof/Machine/Device.lean ====
section
/-! DEFINITION. The devices of `MemMap`: what an access to one answers and changes (spec/20_memory.md R61;
spec/00_scope.md R7; log 8). -/

namespace Sys2Proof.Machine

/-- What a device's functions may depend on. -/
structure DeviceAccess where
  /-- the device's registers before the access -/
  regs : List Nat
  addr : Nat
  /-- the byte written, 0 in a read -/
  data : Nat
  /-- the access's value of `Draw` -/
  free : Nat
  deriving DecidableEq, Repr

/-- An operation; a difference below zero is 0, a quotient by zero is 0. -/
def DeviceOp.eval : DeviceOp → Nat → Nat → Nat
  | .add, l, r => l + r
  | .sub, l, r => l - r
  | .mul, l, r => l * r
  | .div, l, r => l / r
  | .mod, l, r => l % r
  | .and, l, r => l &&& r
  | .or, l, r => l ||| r
  | .xor, l, r => l ^^^ r

/-- The value of an expression at an access. -/
def DeviceExpr.eval (x : DeviceAccess) : DeviceExpr → Nat
  | .lit n => n
  | .reg k => x.regs.getD k 0
  | .addr => x.addr
  | .data => x.data
  | .free => x.free
  | .op o l r => o.eval (l.eval x) (r.eval x)
  | .ifLe l r yes no => if l.eval x ≤ r.eval x then yes.eval x else no.eval x

/-- The device's registers after an access: every value is computed from the registers before the access;
an assignment to a register the device does not have is dropped. -/
def DeviceAccess.after (x : DeviceAccess) (assigns : List (Nat × DeviceExpr)) : List Nat :=
  assigns.foldl (fun regs p => regs.set p.1 (p.2.eval x)) x.regs

/-- An access to a device as the state stands. -/
def State.deviceAccess (st : State) (d : Device) (addr : Word) (data : Byte) : DeviceAccess where
  regs := st.devices.getD d.number []
  addr := addr.toNat
  data := data.toNat
  free := Config.freeNat st.draws

/-- The device's registers replaced; one value of `Draw` has been taken. -/
def State.deviceDone (st : State) (d : Device) (regs : List Nat) : State :=
  { st with devices := st.devices.set d.number regs, draws := st.draws + 1 }

/-- The read function of a device: its answer, modulo 2^8, and its state after (R61). -/
def State.deviceRead (st : State) (d : Device) (addr : Word) : Byte × State :=
  let x := st.deviceAccess d addr 0x00#8
  (BitVec.ofNat 8 (d.readValue.eval x), st.deviceDone d (x.after d.onRead))

/-- The write function of a device: its state after (R61). -/
def State.deviceWrite (st : State) (d : Device) (addr : Word) (v : Byte) : State :=
  st.deviceDone d ((st.deviceAccess d addr v).after d.onWrite)

end Sys2Proof.Machine
end

