-- ==== Sys2Proof/Machine/Outcome.lean ====
section
/-! DEFINITION. The outcome of an operation on the state, and sequencing (spec/00_scope.md R10: the
order of statements is the order of their effects; `raise` ends the step). -/

namespace Sys2Proof.Machine

/-- What an operation that yields a value of type `α` can end in. -/
abbrev Outcome (α : Type) := Host.Outcome α Fault Refusal

/-- What a state change can end in. -/
abbrev Result := Outcome State

/-- First `o`, then `f` on what it gives; a fault or a refusal ends the sequence. -/
def andThen {α β : Type} (o : Outcome α) (f : α → Outcome β) : Outcome β :=
  match o with
  | .next v => f v
  | .fault r => .fault r
  | .refused r => .refused r

/-- `if c then op`. -/
def opIf (c : Bool) (op : State → Result) (st : State) : Result := if c then op st else .next st

end Sys2Proof.Machine
end

