-- ==== Sys2Proof/Machine/Memory.lean ====
section
/-! DEFINITION. Memory as cells in canonical form, and every access to it through the parameter `MemMap`
(spec/20_memory.md R50 to R61). -/

namespace Sys2Proof.Machine

/-! ## The cells -/

/-- The byte at an address: the listed one, or what an unlisted address reads as (log 6). -/
def Memory.read : Memory → Nat → Byte
  | [], _ => Config.unwrittenByte
  | (k, v) :: m, a => if k = a then v else Memory.read m a

/-- Put a byte at an address, keeping the canonical form: a byte equal to what an unlisted address
reads as is not listed. -/
def Memory.write : Memory → Nat → Byte → Memory
  | [], a, v => if v = Config.unwrittenByte then [] else [(a, v)]
  | (k, w) :: m, a, v =>
    if k < a then (k, w) :: Memory.write m a v
    else if k = a then (if v = Config.unwrittenByte then m else (a, v) :: m)
    else if v = Config.unwrittenByte then (k, w) :: m else (a, v) :: (k, w) :: m

/-- The canonical form from an address on: addresses strictly rising and inside the space, no byte
that an unlisted address reads as. -/
def Memory.wfFrom : Nat → Memory → Bool
  | _, [] => true
  | low, (k, v) :: m =>
    decide (low ≤ k) && decide (k < 65536) && (v != Config.unwrittenByte) && Memory.wfFrom (k + 1) m

/-- Memory is in its canonical form. -/
def Memory.wf (m : Memory) : Bool := Memory.wfFrom 0 m

/-! ## MemMap -/

/-- The kind of an address under a map: the first region that holds it, RAM where none does (log 7). -/
def kindIn : List Region → Nat → RegionKind
  | [], _ => .ram
  | r :: rs, a => if r.base ≤ a ∧ a < r.base + r.size then r.kind else kindIn rs a

/-- What `MemMap` places at an address. -/
def State.kindAt (st : State) (addr : Word) : RegionKind := kindIn st.map addr.toNat

/-- The address answers an access at all (it is not one that raises `unmapped`). -/
def State.mapped (st : State) (addr : Word) : Bool := st.kindAt addr != .unmapped

/-- The address is RAM or ROM: a read returns the byte memory holds and has no side effect (R61). -/
def State.backed (st : State) (addr : Word) : Bool :=
  st.kindAt addr == .ram || st.kindAt addr == .rom

/-- The byte memory holds at an address. -/
def State.peek (st : State) (addr : Word) : Byte := st.mem.read addr.toNat

/-- The 16-bit value memory holds at an address, high byte first, the second byte at the next address
modulo 2^16 (R52, R53). -/
def State.peekWord (st : State) (addr : Word) : Word :=
  joinBytes (st.peek addr) (st.peek (addr + 1#16))

/-- Put a byte into memory whatever `MemMap` says. -/
def State.poke (st : State) (addr : Word) (v : Byte) : State :=
  { st with mem := st.mem.write addr.toNat v }

/-- What a write does where it is answered: RAM takes the byte, a device does as its write function says,
ROM and an open bus leave all as it was (R61; log 9, log 22). -/
def State.store (st : State) (addr : Word) (v : Byte) : State :=
  match st.kindAt addr with
  | .ram => st.poke addr v
  | .device d => st.deviceWrite d addr v
  | .rom | .openBus | .unmapped => st

/-! ## Accesses -/

/-- The next value of `Draw` as a bit (`draw_1()`, R10). -/
def State.drawBit (st : State) : Bool × State :=
  (Config.freeBit st.draws, { st with draws := st.draws + 1 })

/-- The next value of `Draw` as a byte. -/
def State.drawByte (st : State) : Byte × State :=
  (Config.freeByte st.draws, { st with draws := st.draws + 1 })

/-- `MemRead(addr, 1)` (R10, R61). -/
def readByte (addr : Word) (st : State) : Outcome (Byte × State) :=
  match st.kindAt addr with
  | .ram | .rom => .next (st.peek addr, st)
  | .device d => .next (st.deviceRead d addr)
  | .openBus => .next st.drawByte
  | .unmapped => .fault (.unmapped addr)

/-- `MemWrite(addr, 1, v)` (R10, R61). -/
def writeByte (addr : Word) (v : Byte) (st : State) : Result :=
  match st.kindAt addr with
  | .ram | .rom | .device _ | .openBus => .next (st.store addr v)
  | .unmapped => .fault (.unmapped addr)

/-- `MemRead(addr, 2)`: two byte accesses, the high byte at `addr` first (R53, R55). -/
def readWord (addr : Word) (st : State) : Outcome (Word × State) :=
  andThen (readByte addr st) fun high =>
    andThen (readByte (addr + 1#16) high.2) fun low => .next (joinBytes high.1 low.1, low.2)

/-- `MemWrite(addr, 2, v)`: two byte accesses, the high byte at `addr` first (R53, R55). -/
def writeWord (addr : Word) (v : Word) (st : State) : Result :=
  andThen (writeByte addr (highByte v) st) (writeByte (addr + 1#16) (lowByte v))

end Sys2Proof.Machine
end

