-- ==== Sys2Proof/Machine/Ops.lean ====
section
/-! DEFINITION. The shared operations: registers and flags of the state, the holding register, the
stacks, taking an exception and returning from one, RESET, and fetching an instruction
(spec/10_state.md; spec/44_register_stack.md R250 to R254; spec/60_exceptions.md R314 to R328). -/

namespace Sys2Proof.Machine

/-! ## Registers and flags -/

/-- D is A : B (R22). -/
def State.d (st : State) : Word := joinBytes st.a st.b

/-- Writing D writes A and B (R22). -/
def State.setD (st : State) (v : Word) : State := { st with a := highByte v, b := lowByte v }

/-- Loading S arms NMI (R318, D21). -/
def State.loadS (st : State) (v : Word) : State := { st with s := v, nmiArmed := true }

/-- A flag of the state's CC. -/
def State.flag (st : State) (fl : Flag) : Bool := getFlag st.cc fl

/-- Replace a flag of the state's CC. -/
def State.setFlag (st : State) (fl : Flag) (v : Bool) : State := { st with cc := putFlag fl v st.cc }

/-- `R[rr]` (R10, R86). -/
def State.ptr (st : State) : PtrReg → Word
  | .x => st.x
  | .y => st.y
  | .u => st.u
  | .s => st.s

/-- `R[rr] <- v`, as an auto increment or decrement does it: it does not arm NMI (R318). -/
def State.setPtr (st : State) : PtrReg → Word → State
  | .x, v => { st with x := v }
  | .y, v => { st with y := v }
  | .u, v => { st with u := v }
  | .s, v => { st with s := v }

/-- The value of a register of a TFR or EXG postbyte, an 8-bit one in the low byte; PC reads as the
next instruction's address (R95, R251). -/
def State.readReg (st : State) : Reg → Word
  | .d => st.d
  | .x => st.x
  | .y => st.y
  | .u => st.u
  | .s => st.s
  | .pc => st.pc
  | .a => zext8 st.a
  | .b => zext8 st.b
  | .cc => zext8 st.cc
  | .dp => zext8 st.dp

/-- Write a register of a TFR or EXG postbyte: D writes A and B, S arms NMI, PC is a jump (R251, R256,
R318). -/
def State.writeReg (st : State) : Reg → Word → State
  | .d, v => st.setD v
  | .x, v => { st with x := v }
  | .y, v => { st with y := v }
  | .u, v => { st with u := v }
  | .s, v => st.loadS v
  | .pc, v => { st with pc := v }
  | .a, v => { st with a := lowByte v }
  | .b, v => { st with b := lowByte v }
  | .cc, v => { st with cc := lowByte v }
  | .dp, v => { st with dp := lowByte v }

/-- Put an effective address into the holding register (R32, R180). -/
def State.hold (st : State) (ea : Word) : State := { st with temp := ea }

/-! ## The stacks (R254) -/

/-- The two stacks (R24). -/
inductive Stack
  | s | u
  deriving DecidableEq, Repr

/-- The pointer of a stack. -/
def State.sp (st : State) : Stack → Word
  | .s => st.s
  | .u => st.u

/-- Move the pointer of a stack; it does not arm NMI (R318). -/
def State.setSp (st : State) : Stack → Word → State
  | .s, v => { st with s := v }
  | .u, v => { st with u := v }

/-- `Push8(sp, v)` (R254). -/
def pushByte (k : Stack) (v : Byte) (st : State) : Result :=
  writeByte (st.sp k - 1#16) v (st.setSp k (st.sp k - 1#16))

/-- `Push16(sp, v)`: low byte first, then the high byte below it (R254). -/
def pushWord (k : Stack) (v : Word) (st : State) : Result :=
  andThen (pushByte k (lowByte v) st) (pushByte k (highByte v))

/-- `Pull8(sp)` (R254). -/
def pullByte (k : Stack) (st : State) : Outcome (Byte × State) :=
  andThen (readByte (st.sp k) st) fun p => .next (p.1, p.2.setSp k (p.2.sp k + 1#16))

/-- `Pull16(sp)`: the high byte, then the low byte above it (R254). -/
def pullWord (k : Stack) (st : State) : Outcome (Word × State) :=
  andThen (pullByte k st) fun high =>
    andThen (pullByte k high.2) fun low => .next (joinBytes high.1 low.1, low.2)

/-- Pull a byte into a register. -/
def pullByteTo (k : Stack) (put : State → Byte → State) (st : State) : Result :=
  andThen (pullByte k st) fun p => .next (put p.2 p.1)

/-- Pull a 16-bit value into a register. -/
def pullWordTo (k : Stack) (put : State → Word → State) (st : State) : Result :=
  andThen (pullWord k st) fun p => .next (put p.2 p.1)

/-- Push the registers a list names on the S stack: PC, U, Y, X, DP, B, A, CC (R253, R258). -/
def pushList (list : Byte) (st : State) : Result :=
  andThen (opIf (list.getLsbD 7) (fun st => pushWord .s st.pc st) st) fun st =>
  andThen (opIf (list.getLsbD 6) (fun st => pushWord .s st.u st) st) fun st =>
  andThen (opIf (list.getLsbD 5) (fun st => pushWord .s st.y st) st) fun st =>
  andThen (opIf (list.getLsbD 4) (fun st => pushWord .s st.x st) st) fun st =>
  andThen (opIf (list.getLsbD 3) (fun st => pushByte .s st.dp st) st) fun st =>
  andThen (opIf (list.getLsbD 2) (fun st => pushByte .s st.b st) st) fun st =>
  andThen (opIf (list.getLsbD 1) (fun st => pushByte .s st.a st) st) fun st =>
  opIf (list.getLsbD 0) (fun st => pushByte .s st.cc st) st

/-- Pull the registers a list names from the U stack: CC, A, B, DP, X, Y, S, PC; S arms NMI (R253,
R259). -/
def pullList (list : Byte) (st : State) : Result :=
  andThen (opIf (list.getLsbD 0) (pullByteTo .u fun st v => { st with cc := v }) st) fun st =>
  andThen (opIf (list.getLsbD 1) (pullByteTo .u fun st v => { st with a := v }) st) fun st =>
  andThen (opIf (list.getLsbD 2) (pullByteTo .u fun st v => { st with b := v }) st) fun st =>
  andThen (opIf (list.getLsbD 3) (pullByteTo .u fun st v => { st with dp := v }) st) fun st =>
  andThen (opIf (list.getLsbD 4) (pullWordTo .u fun st v => { st with x := v }) st) fun st =>
  andThen (opIf (list.getLsbD 5) (pullWordTo .u fun st v => { st with y := v }) st) fun st =>
  andThen (opIf (list.getLsbD 6) (pullWordTo .u fun st v => st.loadS v) st) fun st =>
  opIf (list.getLsbD 7) (pullWordTo .u fun st v => { st with pc := v }) st

/-! ## Taking an exception (R312, R322 to R326) and returning from one (R294, R328) -/

/-- The events that enter a handler (R312). RESET is `resetMachine`. -/
inductive Event
  | nmi | firq | irq | swi | swi2 | swi3
  deriving DecidableEq, Repr

/-- The address of an event's vector (R312). -/
def Event.vector : Event → Word
  | .nmi => Config.vectorNmi
  | .firq => Config.vectorFirq
  | .irq => Config.vectorIrq
  | .swi => Config.vectorSwi
  | .swi2 => Config.vectorSwi2
  | .swi3 => Config.vectorSwi3

/-- The event stacks the entire state, E = 1; FIRQ alone stacks PC and CC, E = 0 (R312). -/
def Event.entire : Event → Bool
  | .firq => false
  | .nmi | .irq | .swi | .swi2 | .swi3 => true

/-- The event sets I before vectoring (R312). -/
def Event.setsI : Event → Bool
  | .nmi | .firq | .irq | .swi => true
  | .swi2 | .swi3 => false

/-- The event sets F before vectoring (R312). -/
def Event.setsF : Event → Bool
  | .nmi | .firq | .swi => true
  | .irq | .swi2 | .swi3 => false

/-- `StackAll()`: the entire state on the S stack, twelve bytes (R322). -/
def stackAll (st : State) : Result :=
  andThen (pushWord .s st.pc st) fun st =>
  andThen (pushWord .s st.u st) fun st =>
  andThen (pushWord .s st.y st) fun st =>
  andThen (pushWord .s st.x st) fun st =>
  andThen (pushByte .s st.dp st) fun st =>
  andThen (pushByte .s st.b st) fun st =>
  andThen (pushByte .s st.a st) fun st =>
  pushByte .s st.cc st

/-- `StackFast()`: PC and CC on the S stack, three bytes (R323). -/
def stackFast (st : State) : Result :=
  andThen (pushWord .s st.pc st) fun st => pushByte .s st.cc st

/-- The mask bits an event sets once the old CC is stacked (R312). -/
def State.maskFor (st : State) (ev : Event) : State :=
  let st1 := if ev.setsF then st.setFlag .f true else st
  if ev.setsI then st1.setFlag .i true else st1

/-- `PC <- Vector(v)` (R314). -/
def jumpToVector (v : Word) (st : State) : Result :=
  andThen (readWord v st) fun p => .next { p.2 with pc := p.1 }

/-- Set the masks and go to the handler: the end of every entry, and all of it after CWAI (R295, R324
to R326). -/
def takeVector (ev : Event) (st : State) : Result := jumpToVector ev.vector (st.maskFor ev)

/-- Taking an NMI clears its latch (R317, R324). -/
def State.acknowledge (st : State) : Event → State
  | .nmi => { st with nmiPending := false }
  | .firq | .irq | .swi | .swi2 | .swi3 => st

/-- Taking an exception: E says how much is stacked, the state is stacked, the masks are set, PC goes
to the handler (R291 to R293, R324 to R326). -/
def enterException (ev : Event) (st : State) : Result :=
  let st1 := (st.acknowledge ev).setFlag .e ev.entire
  andThen (if ev.entire then stackAll st1 else stackFast st1) (takeVector ev)

/-- Returning from an exception: CC, then the entire state if the E just pulled is 1, then PC (R294,
R328). -/
def returnFromException (st : State) : Result :=
  andThen (pullByteTo .s (fun st v => { st with cc := v }) st) fun st =>
  andThen (opIf (st.flag .e) (fun st =>
    andThen (pullByteTo .s (fun st v => { st with a := v }) st) fun st =>
    andThen (pullByteTo .s (fun st v => { st with b := v }) st) fun st =>
    andThen (pullByteTo .s (fun st v => { st with dp := v }) st) fun st =>
    andThen (pullWordTo .s (fun st v => { st with x := v }) st) fun st =>
    andThen (pullWordTo .s (fun st v => { st with y := v }) st) fun st =>
    pullWordTo .s (fun st v => { st with u := v }) st) st) fun st =>
  pullWordTo .s (fun st v => { st with pc := v }) st

/-! ## RESET (R351, R352) -/

/-- The registers a RESET leaves unspecified hold free values after it: A, B, X, Y, U, S and every bit
of CC but F and I, which are 1 (R351, D30; log 16). -/
def State.unspecifyForReset (st : State) : State :=
  { st with
    a := Config.freeByte st.draws
    b := Config.freeByte (st.draws + 1)
    x := Config.freeWord (st.draws + 2)
    y := Config.freeWord (st.draws + 3)
    u := Config.freeWord (st.draws + 4)
    s := Config.freeWord (st.draws + 5)
    cc := putFlag .i true (putFlag .f true (Config.freeByte (st.draws + 6)))
    draws := st.draws + 7 }

/-- `Reset()` (R351): taken at a step boundary; memory keeps what it held. -/
def resetMachine (st : State) : Result :=
  jumpToVector Config.vectorReset
    { st.unspecifyForReset with
      dp := 0x00#8, nmiArmed := false, nmiPending := false, runState := .running }

/-! ## Fetch (R57, R82) -/

/-- `Fetch8()` (R57). -/
def fetchByte (st : State) : Outcome (Byte × State) :=
  andThen (readByte st.pc st) fun p => .next (p.1, { p.2 with pc := p.2.pc + 1#16 })

/-- Fetch bytes until they make an instruction or are known to make none; `bytes` are those fetched
so far (R82). No more than the instruction's own bytes are read (log 14). -/
def fetchFrom : Nat → List Byte → State → Outcome (Instr × State)
  | 0, bytes, _ => .refused (.unknownOpcode bytes)
  | n + 1, bytes, st =>
    andThen (fetchByte st) fun p =>
      match decode (bytes ++ [p.1]) with
      | .ok (i, _) => .next (i, p.2)
      | .error .truncated => fetchFrom n (bytes ++ [p.1]) p.2
      | .error (.unknownOpcode bs) => .refused (.unknownOpcode bs)
      | .error (.illegalPostbyte pb) => .fault (.illegalPostbyte pb)
      | .error (.illegalRegisterCode pb) => .refused (.illegalRegisterCode pb)

/-- Fetch and decode the instruction at PC; PC ends at the next instruction (R26, R57, R82). -/
def fetchInstr (st : State) : Outcome (Instr × State) := fetchFrom maxInstrBytes [] st

/-- The bytes memory holds at an address and after it, modulo 2^16. -/
def State.codeBytes (st : State) : Nat → Word → List Byte
  | 0, _ => []
  | n + 1, addr => st.peek addr :: State.codeBytes st n (addr + 1#16)

end Sys2Proof.Machine
end

