-- ==== Sys2Proof/Machine/Operands.lean ====
section
/-! DEFINITION. Every operand form (spec/40_addressing_modes.md R120 to R129; spec/41_indexed_addressing.md
R151 to R176). Each leaves the effective address in the holding register and makes the register side
effect of the form; the instruction's own operation comes after (R181). PC is already at the next
instruction (R26). -/

namespace Sys2Proof.Machine

/-! ## Immediate, direct, extended -/

/-- The effective address of an 8-bit immediate is the byte before the next instruction (R123; log 14). -/
def eaImm8 (st : State) : State := st.hold (st.pc - 1#16)

/-- The effective address of a 16-bit immediate is two bytes before the next instruction (R123; log 14). -/
def eaImm16 (st : State) : State := st.hold (st.pc - 2#16)

/-- Direct: DP supplies bits 15:8, with no addition (R126). -/
def eaDirect (low : Byte) (st : State) : State := st.hold (joinBytes st.dp low)

/-- Extended: the absolute address (R124). -/
def eaExtended (addr : Word) (st : State) : State := st.hold addr

/-! ## Indexed -/

/-- Constant or accumulator offset from a pointer register, which is unchanged (R160 to R164). -/
def eaOffset (r : PtrReg) (off : Word) (st : State) : State := st.hold (st.ptr r + off)

/-- Auto increment: the address is the register's, then the register steps (R165). -/
def eaIncrement (r : PtrReg) (n : Word) (st : State) : State :=
  (st.hold (st.ptr r)).setPtr r (st.ptr r + n)

/-- Auto decrement: the register steps, then its new value is the address (R167). -/
def eaDecrement (r : PtrReg) (n : Word) (st : State) : State :=
  (st.hold (st.ptr r - n)).setPtr r (st.ptr r - n)

/-- Constant offset from PC, read after every byte of the instruction (R172, R173). -/
def eaPcRelative (off : Word) (st : State) : State := st.hold (st.pc + off)

/-- One level of indirection: the address held is that of a pointer, high byte first (R176). -/
def eaIndirect (st : State) : Result :=
  andThen (readWord st.temp st) fun p => .next (p.2.hold p.1)

/-- `IndexedEA()` (R151), one arm for each row of Table 2. -/
def eaIndexed (ix : Indexed) (st : State) : Result :=
  match ix with
  | .off5 r n => .next (eaOffset r (sext5 n) st)
  | .inc1 r => .next (eaIncrement r 1#16 st)
  | .inc2 r => .next (eaIncrement r 2#16 st)
  | .inc2Ind r => eaIndirect (eaIncrement r 2#16 st)
  | .dec1 r => .next (eaDecrement r 1#16 st)
  | .dec2 r => .next (eaDecrement r 2#16 st)
  | .dec2Ind r => eaIndirect (eaDecrement r 2#16 st)
  | .zero r => .next (eaOffset r 0#16 st)
  | .zeroInd r => eaIndirect (eaOffset r 0#16 st)
  | .accB r => .next (eaOffset r (sext8 st.b) st)
  | .accBInd r => eaIndirect (eaOffset r (sext8 st.b) st)
  | .accA r => .next (eaOffset r (sext8 st.a) st)
  | .accAInd r => eaIndirect (eaOffset r (sext8 st.a) st)
  | .off8 r n => .next (eaOffset r (sext8 n) st)
  | .off8Ind r n => eaIndirect (eaOffset r (sext8 n) st)
  | .off16 r n => .next (eaOffset r n st)
  | .off16Ind r n => eaIndirect (eaOffset r n st)
  | .accD r => .next (eaOffset r st.d st)
  | .accDInd r => eaIndirect (eaOffset r st.d st)
  | .pcr8 n => .next (eaPcRelative (sext8 n) st)
  | .pcr8Ind n => eaIndirect (eaPcRelative (sext8 n) st)
  | .pcr16 n => .next (eaPcRelative n st)
  | .pcr16Ind n => eaIndirect (eaPcRelative n st)
  | .extInd n => eaIndirect (eaExtended n st)

end Sys2Proof.Machine
end

