-- ==== Sys2Proof/Machine/Arith.lean ====
section
/-! DEFINITION. Arithmetic, shift and miscellaneous inherent instructions
(spec/43_arith_shift_misc.md R230 to R236). -/

namespace Sys2Proof.Machine

/-- NOP: nothing beyond the fetch (R236). -/
def execNop (st : State) : Result := .next st

/-- ABX: X plus B unsigned, no flag (R231). -/
def execAbx (st : State) : Result := .next { st with x := st.x + zext8 st.b }

/-- The read-modify-write of ASL at the effective address: one read, one write to the same address
(R59, R232). H takes a free bit (D14; log 11). -/
def shiftLeftAt (st : State) : Result :=
  andThen (readByte st.temp st) fun p =>
    andThen (writeByte p.2.temp (aslResult p.1) p.2) fun st1 =>
      .next { st1.drawBit.2 with cc := aslFlags p.1 st1.drawBit.1 st1.cc }

/-- ASL direct (R232, R126). -/
def execAslDir (lo : Byte) (st : State) : Result := shiftLeftAt (eaDirect lo st)

/-- ASL indexed (R232, R151). -/
def execAslIdx (ix : Indexed) (st : State) : Result := andThen (eaIndexed ix st) shiftLeftAt

/-- ASL extended (R232, R124). -/
def execAslExt (addr : Word) (st : State) : Result := shiftLeftAt (eaExtended addr st)

/-- ASRA: A shifted right, its sign kept; V unchanged, H a free bit (R233, D14; log 11). -/
def execAsra (st : State) : Result :=
  .next { st.drawBit.2 with
    a := asrResult st.a
    cc := asrFlags st.a st.drawBit.1 st.cc }

/-- CLRB (R234). -/
def execClrb (st : State) : Result := .next { st with b := 0x00#8, cc := clrFlags st.cc }

/-- DAA: A corrected by H, C and its digits; V a free bit (R235, D14; log 11). -/
def execDaa (st : State) : Result :=
  .next { st.drawBit.2 with
    a := daaResult st.a (st.flag .h) (st.flag .c)
    cc := daaFlags st.a st.drawBit.1 st.cc }

end Sys2Proof.Machine
end

