-- ==== Sys2Proof/Machine/Branch.lean ====
section
/-! DEFINITION. Conditional branches (spec/45_branches.md R270 to R277). PC is already the address of the
next instruction (R129). -/

namespace Sys2Proof.Machine

/-- If the condition holds of CC, PC takes PC plus the offset modulo 2^16; nothing else changes (R129,
R270, R271). -/
def branchIf (cond : Byte → Bool) (off : Word) (st : State) : Result :=
  .next (if cond st.cc then { st with pc := st.pc + off } else st)

/-- BEQ, short (R273). -/
def execBeq (off : Byte) (st : State) : Result := branchIf condEq (sext8 off) st

/-- BGT, short (R274). -/
def execBgt (off : Byte) (st : State) : Result := branchIf condGt (sext8 off) st

/-- LBEQ, long (R275). -/
def execLbeq (off : Word) (st : State) : Result := branchIf condEq off st

/-- LBGT, long (R276). -/
def execLbgt (off : Word) (st : State) : Result := branchIf condGt off st

end Sys2Proof.Machine
end

