-- ==== Sys2Proof/Machine/LoadStore.lean ====
section
/-! DEFINITION. Loads, stores and load effective address (spec/42_load_store_lea.md R200 to R211). -/

namespace Sys2Proof.Machine

/-! ## What each instruction does with the value it loads -/

/-- `A <- v` with the flags of a load (R201, R211). -/
def State.loadA (st : State) (v : Byte) : State := { st with a := v, cc := moveFlags8 v st.cc }

/-- `B <- v` with the flags of a load (R202, R211). -/
def State.loadB (st : State) (v : Byte) : State := { st with b := v, cc := moveFlags8 v st.cc }

/-- `D <- v` with the flags of a load (R203, R211). -/
def State.loadD (st : State) (v : Word) : State := { st.setD v with cc := moveFlags16 v st.cc }

/-- `X <- v` with the flags of a load (R204, R211). -/
def State.loadX (st : State) (v : Word) : State := { st with x := v, cc := moveFlags16 v st.cc }

/-- `Y <- v` with the flags of a load (R205, R211). -/
def State.loadY (st : State) (v : Word) : State := { st with y := v, cc := moveFlags16 v st.cc }

/-- `U <- v` with the flags of a load; U does not arm NMI (R206, R211). -/
def State.loadU (st : State) (v : Word) : State := { st with u := v, cc := moveFlags16 v st.cc }

/-! ## The data operations, at the address in the holding register (R181 phase 3) -/

/-- Read a byte at the effective address and load it. -/
def loadByteAt (put : State → Byte → State) (st : State) : Result :=
  andThen (readByte st.temp st) fun p => .next (put p.2 p.1)

/-- Read a 16-bit value at the effective address and load it. -/
def loadWordAt (put : State → Word → State) (st : State) : Result :=
  andThen (readWord st.temp st) fun p => .next (put p.2 p.1)

/-- Store a 16-bit register, as it stands after the addressing mode, at the effective address; the
flags from the value stored (R207 to R209, R211). -/
def storeWordAt (get : State → Word) (st : State) : Result :=
  andThen (writeWord st.temp (get st) st) fun st1 =>
    .next { st1 with cc := moveFlags16 (get st) st1.cc }

/-! ## Loads (R201 to R206) -/

/-- LDA immediate: the operand is in the instruction (R201, R123). -/
def execLdaImm (v : Byte) (st : State) : Result := .next (State.loadA (eaImm8 st) v)

/-- LDA direct (R201, R126). -/
def execLdaDir (lo : Byte) (st : State) : Result := loadByteAt State.loadA (eaDirect lo st)

/-- LDA indexed (R201, R151). -/
def execLdaIdx (ix : Indexed) (st : State) : Result :=
  andThen (eaIndexed ix st) (loadByteAt State.loadA)

/-- LDA extended (R201, R124). -/
def execLdaExt (addr : Word) (st : State) : Result := loadByteAt State.loadA (eaExtended addr st)

/-- LDB immediate: the operand is in the instruction (R202, R123). -/
def execLdbImm (v : Byte) (st : State) : Result := .next (State.loadB (eaImm8 st) v)

/-- LDB direct (R202, R126). -/
def execLdbDir (lo : Byte) (st : State) : Result := loadByteAt State.loadB (eaDirect lo st)

/-- LDB indexed (R202, R151). -/
def execLdbIdx (ix : Indexed) (st : State) : Result :=
  andThen (eaIndexed ix st) (loadByteAt State.loadB)

/-- LDB extended (R202, R124). -/
def execLdbExt (addr : Word) (st : State) : Result := loadByteAt State.loadB (eaExtended addr st)

/-- LDD immediate: the operand is in the instruction (R203, R123). -/
def execLddImm (v : Word) (st : State) : Result := .next (State.loadD (eaImm16 st) v)

/-- LDD direct (R203, R126). -/
def execLddDir (lo : Byte) (st : State) : Result := loadWordAt State.loadD (eaDirect lo st)

/-- LDD indexed (R203, R151). -/
def execLddIdx (ix : Indexed) (st : State) : Result :=
  andThen (eaIndexed ix st) (loadWordAt State.loadD)

/-- LDD extended (R203, R124). -/
def execLddExt (addr : Word) (st : State) : Result := loadWordAt State.loadD (eaExtended addr st)

/-- LDX immediate: the operand is in the instruction (R204, R123). -/
def execLdxImm (v : Word) (st : State) : Result := .next (State.loadX (eaImm16 st) v)

/-- LDX direct (R204, R126). -/
def execLdxDir (lo : Byte) (st : State) : Result := loadWordAt State.loadX (eaDirect lo st)

/-- LDX indexed (R204, R151). -/
def execLdxIdx (ix : Indexed) (st : State) : Result :=
  andThen (eaIndexed ix st) (loadWordAt State.loadX)

/-- LDX extended (R204, R124). -/
def execLdxExt (addr : Word) (st : State) : Result := loadWordAt State.loadX (eaExtended addr st)

/-- LDY immediate: the operand is in the instruction (R205, R123). -/
def execLdyImm (v : Word) (st : State) : Result := .next (State.loadY (eaImm16 st) v)

/-- LDY direct (R205, R126). -/
def execLdyDir (lo : Byte) (st : State) : Result := loadWordAt State.loadY (eaDirect lo st)

/-- LDY indexed (R205, R151). -/
def execLdyIdx (ix : Indexed) (st : State) : Result :=
  andThen (eaIndexed ix st) (loadWordAt State.loadY)

/-- LDY extended (R205, R124). -/
def execLdyExt (addr : Word) (st : State) : Result := loadWordAt State.loadY (eaExtended addr st)

/-- LDU immediate: the operand is in the instruction (R206, R123). -/
def execLduImm (v : Word) (st : State) : Result := .next (State.loadU (eaImm16 st) v)

/-- LDU direct (R206, R126). -/
def execLduDir (lo : Byte) (st : State) : Result := loadWordAt State.loadU (eaDirect lo st)

/-- LDU indexed (R206, R151). -/
def execLduIdx (ix : Indexed) (st : State) : Result :=
  andThen (eaIndexed ix st) (loadWordAt State.loadU)

/-- LDU extended (R206, R124). -/
def execLduExt (addr : Word) (st : State) : Result := loadWordAt State.loadU (eaExtended addr st)

/-! ## Stores (R207 to R209) -/

/-- STD direct (R207, R126). -/
def execStdDir (lo : Byte) (st : State) : Result := storeWordAt State.d (eaDirect lo st)

/-- STD indexed (R207, R151). -/
def execStdIdx (ix : Indexed) (st : State) : Result :=
  andThen (eaIndexed ix st) (storeWordAt State.d)

/-- STD extended (R207, R124). -/
def execStdExt (addr : Word) (st : State) : Result := storeWordAt State.d (eaExtended addr st)

/-- STX direct (R208, R126). -/
def execStxDir (lo : Byte) (st : State) : Result := storeWordAt State.x (eaDirect lo st)

/-- STX indexed (R208, R151). -/
def execStxIdx (ix : Indexed) (st : State) : Result :=
  andThen (eaIndexed ix st) (storeWordAt State.x)

/-- STX extended (R208, R124). -/
def execStxExt (addr : Word) (st : State) : Result := storeWordAt State.x (eaExtended addr st)

/-- STU direct (R209, R126). -/
def execStuDir (lo : Byte) (st : State) : Result := storeWordAt State.u (eaDirect lo st)

/-- STU indexed (R209, R151). -/
def execStuIdx (ix : Indexed) (st : State) : Result :=
  andThen (eaIndexed ix st) (storeWordAt State.u)

/-- STU extended (R209, R124). -/
def execStuExt (addr : Word) (st : State) : Result := storeWordAt State.u (eaExtended addr st)

/-! ## Load effective address (R210) -/

/-- LEAX: X takes the address itself, Z says whether it is zero; memory is not read at it (R210). -/
def execLeax (ix : Indexed) (st : State) : Result :=
  andThen (eaIndexed ix st) fun st1 =>
    .next { st1 with x := st1.temp, cc := leaFlags st1.temp st1.cc }

end Sys2Proof.Machine
end

