-- ==== Sys2Proof/Machine/Postbyte.lean ====
section
/-! DEFINITION. The rows of Table 2 by themselves: what a postbyte form does before the instruction that
uses it acts (spec/41_indexed_addressing.md R151, R160 to R176; the first two phases of R181). The
effective address is left in the holding register, the pointer register is stepped. No instruction begins
with a postbyte (log 13). -/

namespace Sys2Proof.Machine

/-- The address computation of `n,R`, 5-bit offset, postbyte `0RRnnnnn` (R161). -/
def execPbOff5 (r : PtrReg) (n : BitVec 5) (st : State) : Result := eaIndexed (.off5 r n) st

/-- The address computation of `,R+`, postbyte `1RR00000` (R165). -/
def execPbInc1 (r : PtrReg) (st : State) : Result := eaIndexed (.inc1 r) st

/-- The address computation of `,R++`, postbyte `1RR00001` (R165). -/
def execPbInc2 (r : PtrReg) (st : State) : Result := eaIndexed (.inc2 r) st

/-- The address computation of `[,R++]`, postbyte `1RR10001` (R165, R176). -/
def execPbInc2Ind (r : PtrReg) (st : State) : Result := eaIndexed (.inc2Ind r) st

/-- The address computation of `,-R`, postbyte `1RR00010` (R167). -/
def execPbDec1 (r : PtrReg) (st : State) : Result := eaIndexed (.dec1 r) st

/-- The address computation of `,--R`, postbyte `1RR00011` (R167). -/
def execPbDec2 (r : PtrReg) (st : State) : Result := eaIndexed (.dec2 r) st

/-- The address computation of `[,--R]`, postbyte `1RR10011` (R167, R176). -/
def execPbDec2Ind (r : PtrReg) (st : State) : Result := eaIndexed (.dec2Ind r) st

/-- The address computation of `,R`, postbyte `1RR00100` (R160). -/
def execPbZero (r : PtrReg) (st : State) : Result := eaIndexed (.zero r) st

/-- The address computation of `[,R]`, postbyte `1RR10100` (R160, R176). -/
def execPbZeroInd (r : PtrReg) (st : State) : Result := eaIndexed (.zeroInd r) st

/-- The address computation of `B,R`, postbyte `1RR00101` (R164). -/
def execPbAccB (r : PtrReg) (st : State) : Result := eaIndexed (.accB r) st

/-- The address computation of `[B,R]`, postbyte `1RR10101` (R164, R176). -/
def execPbAccBInd (r : PtrReg) (st : State) : Result := eaIndexed (.accBInd r) st

/-- The address computation of `A,R`, postbyte `1RR00110` (R164). -/
def execPbAccA (r : PtrReg) (st : State) : Result := eaIndexed (.accA r) st

/-- The address computation of `[A,R]`, postbyte `1RR10110` (R164, R176). -/
def execPbAccAInd (r : PtrReg) (st : State) : Result := eaIndexed (.accAInd r) st

/-- The address computation of `n,R`, 8-bit offset, postbyte `1RR01000` (R162). -/
def execPbOff8 (r : PtrReg) (n : Byte) (st : State) : Result := eaIndexed (.off8 r n) st

/-- The address computation of `[n,R]`, 8-bit offset, postbyte `1RR11000` (R162, R176). -/
def execPbOff8Ind (r : PtrReg) (n : Byte) (st : State) : Result := eaIndexed (.off8Ind r n) st

/-- The address computation of `n,R`, 16-bit offset, postbyte `1RR01001` (R163). -/
def execPbOff16 (r : PtrReg) (n : Word) (st : State) : Result := eaIndexed (.off16 r n) st

/-- The address computation of `[n,R]`, 16-bit offset, postbyte `1RR11001` (R163, R176). -/
def execPbOff16Ind (r : PtrReg) (n : Word) (st : State) : Result := eaIndexed (.off16Ind r n) st

/-- The address computation of `D,R`, postbyte `1RR01011` (R164). -/
def execPbAccD (r : PtrReg) (st : State) : Result := eaIndexed (.accD r) st

/-- The address computation of `[D,R]`, postbyte `1RR11011` (R164, R176). -/
def execPbAccDInd (r : PtrReg) (st : State) : Result := eaIndexed (.accDInd r) st

/-- The address computation of `n,PCR`, 8-bit offset, postbyte `1xx01100` (R172). -/
def execPbPcr8 (n : Byte) (st : State) : Result := eaIndexed (.pcr8 n) st

/-- The address computation of `[n,PCR]`, 8-bit offset, postbyte `1xx11100` (R172, R176). -/
def execPbPcr8Ind (n : Byte) (st : State) : Result := eaIndexed (.pcr8Ind n) st

/-- The address computation of `n,PCR`, 16-bit offset, postbyte `1xx01101` (R172). -/
def execPbPcr16 (n : Word) (st : State) : Result := eaIndexed (.pcr16 n) st

/-- The address computation of `[n,PCR]`, 16-bit offset, postbyte `1xx11101` (R172, R176). -/
def execPbPcr16Ind (n : Word) (st : State) : Result := eaIndexed (.pcr16Ind n) st

/-- The address computation of `[n]`, extended indirect, postbyte `1xx11111` (R175). -/
def execPbExtInd (n : Word) (st : State) : Result := eaIndexed (.extInd n) st

end Sys2Proof.Machine
end

