-- ==== Sys2Proof/Machine/System.lean ====
section
/-! DEFINITION. Software interrupts, return from interrupt and the two waits
(spec/46_system_instructions.md R290 to R297). -/

namespace Sys2Proof.Machine

/-- SWI: entry through $FFFA, both masks set (R291). -/
def execSwi (st : State) : Result := enterException .swi st

/-- SWI2: entry through $FFF4, the masks kept (R292). -/
def execSwi2 (st : State) : Result := enterException .swi2 st

/-- SWI3: entry through $FFF2, the masks kept (R293). -/
def execSwi3 (st : State) : Result := enterException .swi3 st

/-- RTI (R294). -/
def execRti (st : State) : Result := returnFromException st

/-- CWAI: CC is ANDed with the mask, E set, the entire state stacked once, and the wait begins (R295). -/
def execCwai (imm : Byte) (st : State) : Result :=
  andThen (stackAll (State.setFlag { st with cc := st.cc &&& imm } .e true)) fun st1 =>
    .next { st1 with runState := .cwaiWait }

/-- SYNC: the wait begins; nothing is stacked (R296). -/
def execSync (st : State) : Result := .next { st with runState := .syncWait }

end Sys2Proof.Machine
end

