-- ==== Sys2Proof/Machine/Transfer.lean ====
section
/-! DEFINITION. Register transfer, exchange, push and pull (spec/44_register_stack.md R250 to R260). -/

namespace Sys2Proof.Machine

/-- Transfer, where the widths agree: the destination takes the source's value (R256). -/
def transfer (r1 r2 : Reg) (st : State) : State := st.writeReg r2 (st.readReg r1)

/-- Exchange, where the widths agree: both are read before either is written (R257). -/
def exchange (r1 r2 : Reg) (st : State) : State :=
  (st.writeReg r1 (st.readReg r2)).writeReg r2 (st.readReg r1)

/-- A register pair of two widths is refused before any write (R95, R256, R257, D16). -/
def whenSameWidth (r1 r2 : Reg) (op : State → State) (st : State) : Result :=
  if Reg.sameWidth r1 r2 then .next (op st) else .refused (.illegalRegisterCode (regPostbyte r1 r2))

/-- TFR (R256). -/
def execTfr (r1 r2 : Reg) (st : State) : Result := whenSameWidth r1 r2 (transfer r1 r2) st

/-- EXG (R257). -/
def execExg (r1 r2 : Reg) (st : State) : Result := whenSameWidth r1 r2 (exchange r1 r2) st

/-- PSHS (R258). -/
def execPshs (list : Byte) (st : State) : Result := pushList list st

/-- PULU (R259). -/
def execPulu (list : Byte) (st : State) : Result := pullList list st

end Sys2Proof.Machine
end

