-- ==== Sys2Proof/Machine/Dispatch.lean ====
section
/-! DEFINITION. Every instruction and its meaning, one arm per constructor. PC is the address of the next
instruction when a meaning begins (spec/10_state.md R26). -/

namespace Sys2Proof.Machine

def exec (i : Instr) (s : State) : Host.Outcome State Fault Refusal :=
  match i with
  | .nop => Sys2Proof.Machine.execNop s
  | .sync => Sys2Proof.Machine.execSync s
  | .daa => Sys2Proof.Machine.execDaa s
  | .abx => Sys2Proof.Machine.execAbx s
  | .rti => Sys2Proof.Machine.execRti s
  | .swi => Sys2Proof.Machine.execSwi s
  | .swi2 => Sys2Proof.Machine.execSwi2 s
  | .swi3 => Sys2Proof.Machine.execSwi3 s
  | .asra => Sys2Proof.Machine.execAsra s
  | .clrb => Sys2Proof.Machine.execClrb s
  | .cwai imm => Sys2Proof.Machine.execCwai imm s
  | .aslDir lo => Sys2Proof.Machine.execAslDir lo s
  | .aslIdx ix => Sys2Proof.Machine.execAslIdx ix s
  | .aslExt addr => Sys2Proof.Machine.execAslExt addr s
  | .ldaImm v => Sys2Proof.Machine.execLdaImm v s
  | .ldaDir lo => Sys2Proof.Machine.execLdaDir lo s
  | .ldaIdx ix => Sys2Proof.Machine.execLdaIdx ix s
  | .ldaExt addr => Sys2Proof.Machine.execLdaExt addr s
  | .ldbImm v => Sys2Proof.Machine.execLdbImm v s
  | .ldbDir lo => Sys2Proof.Machine.execLdbDir lo s
  | .ldbIdx ix => Sys2Proof.Machine.execLdbIdx ix s
  | .ldbExt addr => Sys2Proof.Machine.execLdbExt addr s
  | .lddImm v => Sys2Proof.Machine.execLddImm v s
  | .lddDir lo => Sys2Proof.Machine.execLddDir lo s
  | .lddIdx ix => Sys2Proof.Machine.execLddIdx ix s
  | .lddExt addr => Sys2Proof.Machine.execLddExt addr s
  | .ldxImm v => Sys2Proof.Machine.execLdxImm v s
  | .ldxDir lo => Sys2Proof.Machine.execLdxDir lo s
  | .ldxIdx ix => Sys2Proof.Machine.execLdxIdx ix s
  | .ldxExt addr => Sys2Proof.Machine.execLdxExt addr s
  | .ldyImm v => Sys2Proof.Machine.execLdyImm v s
  | .ldyDir lo => Sys2Proof.Machine.execLdyDir lo s
  | .ldyIdx ix => Sys2Proof.Machine.execLdyIdx ix s
  | .ldyExt addr => Sys2Proof.Machine.execLdyExt addr s
  | .lduImm v => Sys2Proof.Machine.execLduImm v s
  | .lduDir lo => Sys2Proof.Machine.execLduDir lo s
  | .lduIdx ix => Sys2Proof.Machine.execLduIdx ix s
  | .lduExt addr => Sys2Proof.Machine.execLduExt addr s
  | .stdDir lo => Sys2Proof.Machine.execStdDir lo s
  | .stdIdx ix => Sys2Proof.Machine.execStdIdx ix s
  | .stdExt addr => Sys2Proof.Machine.execStdExt addr s
  | .stxDir lo => Sys2Proof.Machine.execStxDir lo s
  | .stxIdx ix => Sys2Proof.Machine.execStxIdx ix s
  | .stxExt addr => Sys2Proof.Machine.execStxExt addr s
  | .stuDir lo => Sys2Proof.Machine.execStuDir lo s
  | .stuIdx ix => Sys2Proof.Machine.execStuIdx ix s
  | .stuExt addr => Sys2Proof.Machine.execStuExt addr s
  | .leax ix => Sys2Proof.Machine.execLeax ix s
  | .exg r1 r2 => Sys2Proof.Machine.execExg r1 r2 s
  | .tfr r1 r2 => Sys2Proof.Machine.execTfr r1 r2 s
  | .pshs list => Sys2Proof.Machine.execPshs list s
  | .pulu list => Sys2Proof.Machine.execPulu list s
  | .beq off => Sys2Proof.Machine.execBeq off s
  | .bgt off => Sys2Proof.Machine.execBgt off s
  | .lbeq off => Sys2Proof.Machine.execLbeq off s
  | .lbgt off => Sys2Proof.Machine.execLbgt off s
  | .pbOff5 r n => Sys2Proof.Machine.execPbOff5 r n s
  | .pbInc1 r => Sys2Proof.Machine.execPbInc1 r s
  | .pbInc2 r => Sys2Proof.Machine.execPbInc2 r s
  | .pbInc2Ind r => Sys2Proof.Machine.execPbInc2Ind r s
  | .pbDec1 r => Sys2Proof.Machine.execPbDec1 r s
  | .pbDec2 r => Sys2Proof.Machine.execPbDec2 r s
  | .pbDec2Ind r => Sys2Proof.Machine.execPbDec2Ind r s
  | .pbZero r => Sys2Proof.Machine.execPbZero r s
  | .pbZeroInd r => Sys2Proof.Machine.execPbZeroInd r s
  | .pbAccB r => Sys2Proof.Machine.execPbAccB r s
  | .pbAccBInd r => Sys2Proof.Machine.execPbAccBInd r s
  | .pbAccA r => Sys2Proof.Machine.execPbAccA r s
  | .pbAccAInd r => Sys2Proof.Machine.execPbAccAInd r s
  | .pbOff8 r n => Sys2Proof.Machine.execPbOff8 r n s
  | .pbOff8Ind r n => Sys2Proof.Machine.execPbOff8Ind r n s
  | .pbOff16 r n => Sys2Proof.Machine.execPbOff16 r n s
  | .pbOff16Ind r n => Sys2Proof.Machine.execPbOff16Ind r n s
  | .pbAccD r => Sys2Proof.Machine.execPbAccD r s
  | .pbAccDInd r => Sys2Proof.Machine.execPbAccDInd r s
  | .pbPcr8 n => Sys2Proof.Machine.execPbPcr8 n s
  | .pbPcr8Ind n => Sys2Proof.Machine.execPbPcr8Ind n s
  | .pbPcr16 n => Sys2Proof.Machine.execPbPcr16 n s
  | .pbPcr16Ind n => Sys2Proof.Machine.execPbPcr16Ind n s
  | .pbExtInd n => Sys2Proof.Machine.execPbExtInd n s

end Sys2Proof.Machine
end

