-- ==== Sys2Proof/Machine/Interrupts.lean ====
section
/-! DEFINITION. The interrupt inputs and the boundary between steps: recognition, priority and the two
waits (spec/60_exceptions.md R315 to R321; spec/46_system_instructions.md R295, R296). -/

namespace Sys2Proof.Machine

/-- The inputs `Env` supplies before this step; none asserted once the list is used up (R315; log 10). -/
def State.input (st : State) : EnvInput := st.env.headD EnvInput.idle

/-- The inputs of this step are used up by it. -/
def State.dropInput (st : State) : State := { st with env := st.env.tail }

/-- An NMI edge sets the latch if NMI is armed and is dropped if not (R317, R321, D21). -/
def State.latchNmi (st : State) (inp : EnvInput) : State :=
  if inp.nmiEdge && st.nmiArmed then { st with nmiPending := true } else st

/-- NMI is taken at this boundary (R319). -/
def State.takesNmi (st : State) : Bool := st.nmiPending && st.nmiArmed

/-- FIRQ is taken at this boundary: asserted and not masked by F (R319). -/
def State.takesFirq (st : State) (inp : EnvInput) : Bool := inp.firq && !st.flag .f

/-- IRQ is taken at this boundary: asserted and not masked by I (R319). -/
def State.takesIrq (st : State) (inp : EnvInput) : Bool := inp.irq && !st.flag .i

/-- The interrupt to enter at this boundary, if any: NMI before FIRQ before IRQ (R319, R320). -/
def State.recognised (st : State) (inp : EnvInput) : Option Event :=
  if st.takesNmi then some .nmi
  else if st.takesFirq inp then some .firq
  else if st.takesIrq inp then some .irq
  else none

/-- The step of an MPU in SyncWait: any asserted interrupt input ends the wait, masked or not; an NMI
only if armed. The interrupt itself is recognised at the next step (R296). -/
def syncWaitStep (inp : EnvInput) (st : State) : Result :=
  if st.takesNmi || inp.firq || inp.irq then .next { st with runState := .running } else .next st

/-- The step of an MPU in CwaiWait: an interrupt that is not masked ends the wait and is taken without
stacking again (R295). -/
def cwaiWaitStep (inp : EnvInput) (st : State) : Result :=
  match st.recognised inp with
  | some ev =>
    andThen (takeVector ev (st.acknowledge ev)) fun st1 => .next { st1 with runState := .running }
  | none => .next st

/-- One look at a boundary once RESET is ruled out and the NMI edge is latched: an interrupt entry, the
next instruction, or a step of a wait (R321). -/
def boundary (run : State → Result) (inp : EnvInput) (st : State) : Result :=
  match st.runState with
  | .running =>
    match st.recognised inp with
    | some ev => enterException ev st
    | none => run st
  | .syncWait => syncWaitStep inp st
  | .cwaiWait => cwaiWaitStep inp st

/-- `Step()` (R321), `run` being ExecuteOneInstruction. -/
def stepWith (run : State → Result) (st : State) : Result :=
  if st.input.reset then resetMachine st.dropInput
  else boundary run st.input (st.dropInput.latchNmi st.input)

/-! ## Placing an instruction where the next step fetches it -/

/-- Bytes put at consecutive addresses, modulo 2^16. -/
def State.pokeBytes (st : State) (addr : Word) : List Byte → State
  | [] => st
  | b :: bs => State.pokeBytes (st.poke addr b) (addr + 1#16) bs

/-- One-byte RAM regions for those of `n` addresses that are neither RAM nor ROM. -/
def State.ramPatches (st : State) (addr : Word) : Nat → List Region
  | 0 => []
  | n + 1 =>
    (if st.backed addr then [] else [{ base := addr.toNat, size := 1, kind := .ram }]) ++
      State.ramPatches st (addr + 1#16) n

/-- The next step's inputs with nothing asserted; the later ones kept. -/
def State.quietInput (st : State) : List EnvInput :=
  match st.env with
  | [] => []
  | _ :: later => EnvInput.idle :: later

/-- The machine about to fetch `bytes` at PC: the bytes placed, PC's addresses answering, no wait, and
no input or latched NMI that would come before the instruction (log 23). -/
def State.placeAtPc (st : State) (bytes : List Byte) : State :=
  { st.pokeBytes st.pc bytes with
    map := st.ramPatches st.pc bytes.length ++ st.map
    runState := .running
    nmiPending := false
    env := st.quietInput }

end Sys2Proof.Machine
end

