-- ==== Sys2Proof/Machine/Step.lean ====
section
/-! DEFINITION. One step of the MPU (spec/60_exceptions.md R321). -/

namespace Sys2Proof.Machine

/-- ExecuteOneInstruction: fetch, decode, the instruction's rule (R321). -/
def executeOne (st : State) : Host.Outcome State Fault Refusal :=
  andThen (fetchInstr st) fun p => exec p.1 p.2

/-- One step: a RESET, an interrupt entry, one instruction, or one look at the inputs in a wait (R321). -/
def step (st : State) : Host.Outcome State Fault Refusal := stepWith executeOne st

/-- The state whose next step fetches and runs the instruction with the table word `w` (log 23). -/
def State.withFetchWord (s : State) (nbits w : Nat) : State := s.placeAtPc (tableWordBytes nbits w)

end Sys2Proof.Machine
end

