-- ==== Sys2Proof/Laws/Flags.lean ====
section
/-! SUPPORT. What the flag computations do, flag by flag (spec/10_state.md R27, R28). -/

namespace Sys2Proof.Machine

/-- Replacing a flag changes that flag and no other. -/
theorem getFlag_putFlag (cc : Byte) (fl g : Flag) (v : Bool) :
    getFlag (putFlag fl v cc) g = if g = fl then v else getFlag cc g := by
  cases fl <;> cases g <;> cases v <;> simp [getFlag, putFlag, Flag.mask, Flag.bit]

@[simp] theorem getFlag_putFlag_same (cc : Byte) (fl : Flag) (v : Bool) :
    getFlag (putFlag fl v cc) fl = v := by
  simp [getFlag_putFlag]

theorem getFlag_putFlag_other (cc : Byte) (fl g : Flag) (v : Bool) (h : g ≠ fl) :
    getFlag (putFlag fl v cc) g = getFlag cc g := by
  simp [getFlag_putFlag, h]

/-- Two CC bytes with the same eight flags are the same byte. -/
theorem cc_ext {cc cc' : Byte} (h : ∀ fl, getFlag cc fl = getFlag cc' fl) : cc = cc' := by
  apply BitVec.eq_of_getLsbD_eq
  intro k hk
  have h0 := h .c
  have h1 := h .v
  have h2 := h .z
  have h3 := h .n
  have h4 := h .i
  have h5 := h .h
  have h6 := h .f
  have h7 := h .e
  simp only [getFlag, Flag.bit] at h0 h1 h2 h3 h4 h5 h6 h7
  interval_cases k <;> assumption

/-- An 8-bit load or store: N, Z from the value, V cleared, nothing else (R211). -/
theorem getFlag_moveFlags8 (v cc : Byte) (g : Flag) :
    getFlag (moveFlags8 v cc) g =
      match g with
      | .n => v.msb
      | .z => v == 0x00#8
      | .v => false
      | .c | .i | .h | .f | .e => getFlag cc g := by
  cases g <;> simp [moveFlags8, setNZ8, getFlag_putFlag]

/-- A 16-bit load or store: N, Z from the value, V cleared, nothing else (R211). -/
theorem getFlag_moveFlags16 (v : Word) (cc : Byte) (g : Flag) :
    getFlag (moveFlags16 v cc) g =
      match g with
      | .n => v.msb
      | .z => v == 0x0000#16
      | .v => false
      | .c | .i | .h | .f | .e => getFlag cc g := by
  cases g <;> simp [moveFlags16, setNZ16, getFlag_putFlag]

/-- LEAX: Z from the address, nothing else (R210). -/
theorem getFlag_leaFlags (ea : Word) (cc : Byte) (g : Flag) :
    getFlag (leaFlags ea cc) g = if g = .z then ea == 0x0000#16 else getFlag cc g := by
  simp [leaFlags, getFlag_putFlag]

/-- ASL: C, N, Z, V from the byte, H free, nothing else (R232). -/
theorem getFlag_aslFlags (m cc : Byte) (free : Bool) (g : Flag) :
    getFlag (aslFlags m free cc) g =
      match g with
      | .c => m.getLsbD 7
      | .n => (aslResult m).msb
      | .z => aslResult m == 0x00#8
      | .v => m.getLsbD 7 ^^ m.getLsbD 6
      | .h => free
      | .i | .f | .e => getFlag cc g := by
  cases g <;> simp [aslFlags, setNZ8, getFlag_putFlag]

/-- ASRA: C, N, Z from A, H free, nothing else (R233). -/
theorem getFlag_asrFlags (a cc : Byte) (free : Bool) (g : Flag) :
    getFlag (asrFlags a free cc) g =
      match g with
      | .c => a.getLsbD 0
      | .n => (asrResult a).msb
      | .z => asrResult a == 0x00#8
      | .h => free
      | .v | .i | .f | .e => getFlag cc g := by
  cases g <;> simp [asrFlags, setNZ8, getFlag_putFlag]

/-- CLRB: N = 0, Z = 1, V = 0, C = 0, nothing else (R234). -/
theorem getFlag_clrFlags (cc : Byte) (g : Flag) :
    getFlag (clrFlags cc) g =
      match g with
      | .n | .v | .c => false
      | .z => true
      | .i | .h | .f | .e => getFlag cc g := by
  cases g <;> simp [clrFlags, getFlag_putFlag]

/-- DAA: N, Z from the result, C kept set or set by the carry, V free, nothing else (R235). -/
theorem getFlag_daaFlags (a cc : Byte) (free : Bool) (g : Flag) :
    getFlag (daaFlags a free cc) g =
      match g with
      | .n => (daaResult a (getFlag cc .h) (getFlag cc .c)).msb
      | .z => daaResult a (getFlag cc .h) (getFlag cc .c) == 0x00#8
      | .c => getFlag cc .c || (daaSum a (getFlag cc .h) (getFlag cc .c)).getLsbD 8
      | .v => free
      | .i | .h | .f | .e => getFlag cc g := by
  cases g <;> simp [daaFlags, setNZ8, getFlag_putFlag]

/-- Setting a flag that is set already changes nothing. -/
theorem putFlag_of_getFlag {cc : Byte} {fl : Flag} {v : Bool} (h : getFlag cc fl = v) :
    putFlag fl v cc = cc := by
  apply cc_ext
  intro g
  rw [getFlag_putFlag]
  split
  · subst g
    exact h.symm
  · rfl

end Sys2Proof.Machine
end

