-- ==== Sys2Proof/Laws/Outcome.lean ====
section
/-! SUPPORT. What a sequence of operations answers. -/

namespace Sys2Proof.Machine

variable {α β : Type}

@[simp] theorem andThen_next (v : α) (f : α → Outcome β) : andThen (.next v) f = f v := rfl

@[simp] theorem andThen_fault (r : Fault) (f : α → Outcome β) : andThen (.fault r) f = .fault r := rfl

@[simp] theorem andThen_refused (r : Refusal) (f : α → Outcome β) :
    andThen (.refused r) f = .refused r := rfl

/-- A sequence answers a value exactly when both its parts do. -/
theorem andThen_eq_next {o : Outcome α} {f : α → Outcome β} {w : β} :
    andThen o f = .next w ↔ ∃ v, o = .next v ∧ f v = .next w := by
  cases o <;> simp

/-- A sequence faults when its first part does or the rest does. -/
theorem andThen_eq_fault {o : Outcome α} {f : α → Outcome β} {r : Fault} :
    andThen o f = .fault r ↔ o = .fault r ∨ ∃ v, o = .next v ∧ f v = .fault r := by
  cases o <;> simp

/-- Sequencing is associative. -/
theorem andThen_assoc {γ : Type} (o : Outcome α) (f : α → Outcome β) (g : β → Outcome γ) :
    andThen (andThen o f) g = andThen o fun v => andThen (f v) g := by
  cases o <;> rfl

@[simp] theorem opIf_true (op : State → Result) (st : State) : opIf true op st = op st := rfl

@[simp] theorem opIf_false (op : State → Result) (st : State) : opIf false op st = .next st := rfl

/-- A conditional operation answers what the operation does, or the state as it was. -/
theorem opIf_eq_next {c : Bool} {op : State → Result} {st t : State} :
    opIf c op st = .next t ↔ (c = true ∧ op st = .next t) ∨ (c = false ∧ t = st) := by
  cases c <;> simp [eq_comm]

end Sys2Proof.Machine
end

