-- ==== Sys2Proof/Laws/State.lean ====
section
/-! SUPPORT. One lemma per field per update of the state, so that no proof unfolds a record update. -/

namespace Sys2Proof.Machine

/-! ## `State.setD` -/

@[simp] theorem State.setD_a (st : State) (v : Word) : (st.setD v).a = highByte v := rfl
@[simp] theorem State.setD_b (st : State) (v : Word) : (st.setD v).b = lowByte v := rfl
@[simp] theorem State.setD_x (st : State) (v : Word) : (st.setD v).x = st.x := rfl
@[simp] theorem State.setD_y (st : State) (v : Word) : (st.setD v).y = st.y := rfl
@[simp] theorem State.setD_u (st : State) (v : Word) : (st.setD v).u = st.u := rfl
@[simp] theorem State.setD_s (st : State) (v : Word) : (st.setD v).s = st.s := rfl
@[simp] theorem State.setD_pc (st : State) (v : Word) : (st.setD v).pc = st.pc := rfl
@[simp] theorem State.setD_dp (st : State) (v : Word) : (st.setD v).dp = st.dp := rfl
@[simp] theorem State.setD_cc (st : State) (v : Word) : (st.setD v).cc = st.cc := rfl
@[simp] theorem State.setD_nmiArmed (st : State) (v : Word) : (st.setD v).nmiArmed = st.nmiArmed := rfl
@[simp] theorem State.setD_nmiPending (st : State) (v : Word) : (st.setD v).nmiPending = st.nmiPending := rfl
@[simp] theorem State.setD_runState (st : State) (v : Word) : (st.setD v).runState = st.runState := rfl
@[simp] theorem State.setD_temp (st : State) (v : Word) : (st.setD v).temp = st.temp := rfl
@[simp] theorem State.setD_mem (st : State) (v : Word) : (st.setD v).mem = st.mem := rfl
@[simp] theorem State.setD_map (st : State) (v : Word) : (st.setD v).map = st.map := rfl
@[simp] theorem State.setD_devices (st : State) (v : Word) : (st.setD v).devices = st.devices := rfl
@[simp] theorem State.setD_env (st : State) (v : Word) : (st.setD v).env = st.env := rfl
@[simp] theorem State.setD_draws (st : State) (v : Word) : (st.setD v).draws = st.draws := rfl

/-! ## `State.loadS` -/

@[simp] theorem State.loadS_a (st : State) (v : Word) : (st.loadS v).a = st.a := rfl
@[simp] theorem State.loadS_b (st : State) (v : Word) : (st.loadS v).b = st.b := rfl
@[simp] theorem State.loadS_x (st : State) (v : Word) : (st.loadS v).x = st.x := rfl
@[simp] theorem State.loadS_y (st : State) (v : Word) : (st.loadS v).y = st.y := rfl
@[simp] theorem State.loadS_u (st : State) (v : Word) : (st.loadS v).u = st.u := rfl
@[simp] theorem State.loadS_s (st : State) (v : Word) : (st.loadS v).s = v := rfl
@[simp] theorem State.loadS_pc (st : State) (v : Word) : (st.loadS v).pc = st.pc := rfl
@[simp] theorem State.loadS_dp (st : State) (v : Word) : (st.loadS v).dp = st.dp := rfl
@[simp] theorem State.loadS_cc (st : State) (v : Word) : (st.loadS v).cc = st.cc := rfl
@[simp] theorem State.loadS_nmiArmed (st : State) (v : Word) : (st.loadS v).nmiArmed = true := rfl
@[simp] theorem State.loadS_nmiPending (st : State) (v : Word) : (st.loadS v).nmiPending = st.nmiPending := rfl
@[simp] theorem State.loadS_runState (st : State) (v : Word) : (st.loadS v).runState = st.runState := rfl
@[simp] theorem State.loadS_temp (st : State) (v : Word) : (st.loadS v).temp = st.temp := rfl
@[simp] theorem State.loadS_mem (st : State) (v : Word) : (st.loadS v).mem = st.mem := rfl
@[simp] theorem State.loadS_map (st : State) (v : Word) : (st.loadS v).map = st.map := rfl
@[simp] theorem State.loadS_devices (st : State) (v : Word) : (st.loadS v).devices = st.devices := rfl
@[simp] theorem State.loadS_env (st : State) (v : Word) : (st.loadS v).env = st.env := rfl
@[simp] theorem State.loadS_draws (st : State) (v : Word) : (st.loadS v).draws = st.draws := rfl

/-! ## `State.setFlag` -/

@[simp] theorem State.setFlag_a (st : State) (fl : Flag) (v : Bool) : (st.setFlag fl v).a = st.a := rfl
@[simp] theorem State.setFlag_b (st : State) (fl : Flag) (v : Bool) : (st.setFlag fl v).b = st.b := rfl
@[simp] theorem State.setFlag_x (st : State) (fl : Flag) (v : Bool) : (st.setFlag fl v).x = st.x := rfl
@[simp] theorem State.setFlag_y (st : State) (fl : Flag) (v : Bool) : (st.setFlag fl v).y = st.y := rfl
@[simp] theorem State.setFlag_u (st : State) (fl : Flag) (v : Bool) : (st.setFlag fl v).u = st.u := rfl
@[simp] theorem State.setFlag_s (st : State) (fl : Flag) (v : Bool) : (st.setFlag fl v).s = st.s := rfl
@[simp] theorem State.setFlag_pc (st : State) (fl : Flag) (v : Bool) : (st.setFlag fl v).pc = st.pc := rfl
@[simp] theorem State.setFlag_dp (st : State) (fl : Flag) (v : Bool) : (st.setFlag fl v).dp = st.dp := rfl
@[simp] theorem State.setFlag_cc (st : State) (fl : Flag) (v : Bool) : (st.setFlag fl v).cc = putFlag fl v st.cc := rfl
@[simp] theorem State.setFlag_nmiArmed (st : State) (fl : Flag) (v : Bool) : (st.setFlag fl v).nmiArmed = st.nmiArmed := rfl
@[simp] theorem State.setFlag_nmiPending (st : State) (fl : Flag) (v : Bool) : (st.setFlag fl v).nmiPending = st.nmiPending := rfl
@[simp] theorem State.setFlag_runState (st : State) (fl : Flag) (v : Bool) : (st.setFlag fl v).runState = st.runState := rfl
@[simp] theorem State.setFlag_temp (st : State) (fl : Flag) (v : Bool) : (st.setFlag fl v).temp = st.temp := rfl
@[simp] theorem State.setFlag_mem (st : State) (fl : Flag) (v : Bool) : (st.setFlag fl v).mem = st.mem := rfl
@[simp] theorem State.setFlag_map (st : State) (fl : Flag) (v : Bool) : (st.setFlag fl v).map = st.map := rfl
@[simp] theorem State.setFlag_devices (st : State) (fl : Flag) (v : Bool) : (st.setFlag fl v).devices = st.devices := rfl
@[simp] theorem State.setFlag_env (st : State) (fl : Flag) (v : Bool) : (st.setFlag fl v).env = st.env := rfl
@[simp] theorem State.setFlag_draws (st : State) (fl : Flag) (v : Bool) : (st.setFlag fl v).draws = st.draws := rfl

/-! ## `State.hold` -/

@[simp] theorem State.hold_a (st : State) (ea : Word) : (st.hold ea).a = st.a := rfl
@[simp] theorem State.hold_b (st : State) (ea : Word) : (st.hold ea).b = st.b := rfl
@[simp] theorem State.hold_x (st : State) (ea : Word) : (st.hold ea).x = st.x := rfl
@[simp] theorem State.hold_y (st : State) (ea : Word) : (st.hold ea).y = st.y := rfl
@[simp] theorem State.hold_u (st : State) (ea : Word) : (st.hold ea).u = st.u := rfl
@[simp] theorem State.hold_s (st : State) (ea : Word) : (st.hold ea).s = st.s := rfl
@[simp] theorem State.hold_pc (st : State) (ea : Word) : (st.hold ea).pc = st.pc := rfl
@[simp] theorem State.hold_dp (st : State) (ea : Word) : (st.hold ea).dp = st.dp := rfl
@[simp] theorem State.hold_cc (st : State) (ea : Word) : (st.hold ea).cc = st.cc := rfl
@[simp] theorem State.hold_nmiArmed (st : State) (ea : Word) : (st.hold ea).nmiArmed = st.nmiArmed := rfl
@[simp] theorem State.hold_nmiPending (st : State) (ea : Word) : (st.hold ea).nmiPending = st.nmiPending := rfl
@[simp] theorem State.hold_runState (st : State) (ea : Word) : (st.hold ea).runState = st.runState := rfl
@[simp] theorem State.hold_temp (st : State) (ea : Word) : (st.hold ea).temp = ea := rfl
@[simp] theorem State.hold_mem (st : State) (ea : Word) : (st.hold ea).mem = st.mem := rfl
@[simp] theorem State.hold_map (st : State) (ea : Word) : (st.hold ea).map = st.map := rfl
@[simp] theorem State.hold_devices (st : State) (ea : Word) : (st.hold ea).devices = st.devices := rfl
@[simp] theorem State.hold_env (st : State) (ea : Word) : (st.hold ea).env = st.env := rfl
@[simp] theorem State.hold_draws (st : State) (ea : Word) : (st.hold ea).draws = st.draws := rfl

/-! ## `State.poke` -/

@[simp] theorem State.poke_a (st : State) (addr : Word) (v : Byte) : (st.poke addr v).a = st.a := rfl
@[simp] theorem State.poke_b (st : State) (addr : Word) (v : Byte) : (st.poke addr v).b = st.b := rfl
@[simp] theorem State.poke_x (st : State) (addr : Word) (v : Byte) : (st.poke addr v).x = st.x := rfl
@[simp] theorem State.poke_y (st : State) (addr : Word) (v : Byte) : (st.poke addr v).y = st.y := rfl
@[simp] theorem State.poke_u (st : State) (addr : Word) (v : Byte) : (st.poke addr v).u = st.u := rfl
@[simp] theorem State.poke_s (st : State) (addr : Word) (v : Byte) : (st.poke addr v).s = st.s := rfl
@[simp] theorem State.poke_pc (st : State) (addr : Word) (v : Byte) : (st.poke addr v).pc = st.pc := rfl
@[simp] theorem State.poke_dp (st : State) (addr : Word) (v : Byte) : (st.poke addr v).dp = st.dp := rfl
@[simp] theorem State.poke_cc (st : State) (addr : Word) (v : Byte) : (st.poke addr v).cc = st.cc := rfl
@[simp] theorem State.poke_nmiArmed (st : State) (addr : Word) (v : Byte) : (st.poke addr v).nmiArmed = st.nmiArmed := rfl
@[simp] theorem State.poke_nmiPending (st : State) (addr : Word) (v : Byte) : (st.poke addr v).nmiPending = st.nmiPending := rfl
@[simp] theorem State.poke_runState (st : State) (addr : Word) (v : Byte) : (st.poke addr v).runState = st.runState := rfl
@[simp] theorem State.poke_temp (st : State) (addr : Word) (v : Byte) : (st.poke addr v).temp = st.temp := rfl
@[simp] theorem State.poke_mem (st : State) (addr : Word) (v : Byte) : (st.poke addr v).mem = st.mem.write addr.toNat v := rfl
@[simp] theorem State.poke_map (st : State) (addr : Word) (v : Byte) : (st.poke addr v).map = st.map := rfl
@[simp] theorem State.poke_devices (st : State) (addr : Word) (v : Byte) : (st.poke addr v).devices = st.devices := rfl
@[simp] theorem State.poke_env (st : State) (addr : Word) (v : Byte) : (st.poke addr v).env = st.env := rfl
@[simp] theorem State.poke_draws (st : State) (addr : Word) (v : Byte) : (st.poke addr v).draws = st.draws := rfl

/-! ## `State.dropInput` -/

@[simp] theorem State.dropInput_a (st : State) : (st.dropInput).a = st.a := rfl
@[simp] theorem State.dropInput_b (st : State) : (st.dropInput).b = st.b := rfl
@[simp] theorem State.dropInput_x (st : State) : (st.dropInput).x = st.x := rfl
@[simp] theorem State.dropInput_y (st : State) : (st.dropInput).y = st.y := rfl
@[simp] theorem State.dropInput_u (st : State) : (st.dropInput).u = st.u := rfl
@[simp] theorem State.dropInput_s (st : State) : (st.dropInput).s = st.s := rfl
@[simp] theorem State.dropInput_pc (st : State) : (st.dropInput).pc = st.pc := rfl
@[simp] theorem State.dropInput_dp (st : State) : (st.dropInput).dp = st.dp := rfl
@[simp] theorem State.dropInput_cc (st : State) : (st.dropInput).cc = st.cc := rfl
@[simp] theorem State.dropInput_nmiArmed (st : State) : (st.dropInput).nmiArmed = st.nmiArmed := rfl
@[simp] theorem State.dropInput_nmiPending (st : State) : (st.dropInput).nmiPending = st.nmiPending := rfl
@[simp] theorem State.dropInput_runState (st : State) : (st.dropInput).runState = st.runState := rfl
@[simp] theorem State.dropInput_temp (st : State) : (st.dropInput).temp = st.temp := rfl
@[simp] theorem State.dropInput_mem (st : State) : (st.dropInput).mem = st.mem := rfl
@[simp] theorem State.dropInput_map (st : State) : (st.dropInput).map = st.map := rfl
@[simp] theorem State.dropInput_devices (st : State) : (st.dropInput).devices = st.devices := rfl
@[simp] theorem State.dropInput_env (st : State) : (st.dropInput).env = st.env.tail := rfl
@[simp] theorem State.dropInput_draws (st : State) : (st.dropInput).draws = st.draws := rfl

/-! ## `State.loadA` -/

@[simp] theorem State.loadA_a (st : State) (v : Byte) : (st.loadA v).a = v := rfl
@[simp] theorem State.loadA_b (st : State) (v : Byte) : (st.loadA v).b = st.b := rfl
@[simp] theorem State.loadA_x (st : State) (v : Byte) : (st.loadA v).x = st.x := rfl
@[simp] theorem State.loadA_y (st : State) (v : Byte) : (st.loadA v).y = st.y := rfl
@[simp] theorem State.loadA_u (st : State) (v : Byte) : (st.loadA v).u = st.u := rfl
@[simp] theorem State.loadA_s (st : State) (v : Byte) : (st.loadA v).s = st.s := rfl
@[simp] theorem State.loadA_pc (st : State) (v : Byte) : (st.loadA v).pc = st.pc := rfl
@[simp] theorem State.loadA_dp (st : State) (v : Byte) : (st.loadA v).dp = st.dp := rfl
@[simp] theorem State.loadA_cc (st : State) (v : Byte) : (st.loadA v).cc = moveFlags8 v st.cc := rfl
@[simp] theorem State.loadA_nmiArmed (st : State) (v : Byte) : (st.loadA v).nmiArmed = st.nmiArmed := rfl
@[simp] theorem State.loadA_nmiPending (st : State) (v : Byte) : (st.loadA v).nmiPending = st.nmiPending := rfl
@[simp] theorem State.loadA_runState (st : State) (v : Byte) : (st.loadA v).runState = st.runState := rfl
@[simp] theorem State.loadA_temp (st : State) (v : Byte) : (st.loadA v).temp = st.temp := rfl
@[simp] theorem State.loadA_mem (st : State) (v : Byte) : (st.loadA v).mem = st.mem := rfl
@[simp] theorem State.loadA_map (st : State) (v : Byte) : (st.loadA v).map = st.map := rfl
@[simp] theorem State.loadA_devices (st : State) (v : Byte) : (st.loadA v).devices = st.devices := rfl
@[simp] theorem State.loadA_env (st : State) (v : Byte) : (st.loadA v).env = st.env := rfl
@[simp] theorem State.loadA_draws (st : State) (v : Byte) : (st.loadA v).draws = st.draws := rfl

/-! ## `State.loadB` -/

@[simp] theorem State.loadB_a (st : State) (v : Byte) : (st.loadB v).a = st.a := rfl
@[simp] theorem State.loadB_b (st : State) (v : Byte) : (st.loadB v).b = v := rfl
@[simp] theorem State.loadB_x (st : State) (v : Byte) : (st.loadB v).x = st.x := rfl
@[simp] theorem State.loadB_y (st : State) (v : Byte) : (st.loadB v).y = st.y := rfl
@[simp] theorem State.loadB_u (st : State) (v : Byte) : (st.loadB v).u = st.u := rfl
@[simp] theorem State.loadB_s (st : State) (v : Byte) : (st.loadB v).s = st.s := rfl
@[simp] theorem State.loadB_pc (st : State) (v : Byte) : (st.loadB v).pc = st.pc := rfl
@[simp] theorem State.loadB_dp (st : State) (v : Byte) : (st.loadB v).dp = st.dp := rfl
@[simp] theorem State.loadB_cc (st : State) (v : Byte) : (st.loadB v).cc = moveFlags8 v st.cc := rfl
@[simp] theorem State.loadB_nmiArmed (st : State) (v : Byte) : (st.loadB v).nmiArmed = st.nmiArmed := rfl
@[simp] theorem State.loadB_nmiPending (st : State) (v : Byte) : (st.loadB v).nmiPending = st.nmiPending := rfl
@[simp] theorem State.loadB_runState (st : State) (v : Byte) : (st.loadB v).runState = st.runState := rfl
@[simp] theorem State.loadB_temp (st : State) (v : Byte) : (st.loadB v).temp = st.temp := rfl
@[simp] theorem State.loadB_mem (st : State) (v : Byte) : (st.loadB v).mem = st.mem := rfl
@[simp] theorem State.loadB_map (st : State) (v : Byte) : (st.loadB v).map = st.map := rfl
@[simp] theorem State.loadB_devices (st : State) (v : Byte) : (st.loadB v).devices = st.devices := rfl
@[simp] theorem State.loadB_env (st : State) (v : Byte) : (st.loadB v).env = st.env := rfl
@[simp] theorem State.loadB_draws (st : State) (v : Byte) : (st.loadB v).draws = st.draws := rfl

/-! ## `State.loadD` -/

@[simp] theorem State.loadD_a (st : State) (v : Word) : (st.loadD v).a = highByte v := rfl
@[simp] theorem State.loadD_b (st : State) (v : Word) : (st.loadD v).b = lowByte v := rfl
@[simp] theorem State.loadD_x (st : State) (v : Word) : (st.loadD v).x = st.x := rfl
@[simp] theorem State.loadD_y (st : State) (v : Word) : (st.loadD v).y = st.y := rfl
@[simp] theorem State.loadD_u (st : State) (v : Word) : (st.loadD v).u = st.u := rfl
@[simp] theorem State.loadD_s (st : State) (v : Word) : (st.loadD v).s = st.s := rfl
@[simp] theorem State.loadD_pc (st : State) (v : Word) : (st.loadD v).pc = st.pc := rfl
@[simp] theorem State.loadD_dp (st : State) (v : Word) : (st.loadD v).dp = st.dp := rfl
@[simp] theorem State.loadD_cc (st : State) (v : Word) : (st.loadD v).cc = moveFlags16 v st.cc := rfl
@[simp] theorem State.loadD_nmiArmed (st : State) (v : Word) : (st.loadD v).nmiArmed = st.nmiArmed := rfl
@[simp] theorem State.loadD_nmiPending (st : State) (v : Word) : (st.loadD v).nmiPending = st.nmiPending := rfl
@[simp] theorem State.loadD_runState (st : State) (v : Word) : (st.loadD v).runState = st.runState := rfl
@[simp] theorem State.loadD_temp (st : State) (v : Word) : (st.loadD v).temp = st.temp := rfl
@[simp] theorem State.loadD_mem (st : State) (v : Word) : (st.loadD v).mem = st.mem := rfl
@[simp] theorem State.loadD_map (st : State) (v : Word) : (st.loadD v).map = st.map := rfl
@[simp] theorem State.loadD_devices (st : State) (v : Word) : (st.loadD v).devices = st.devices := rfl
@[simp] theorem State.loadD_env (st : State) (v : Word) : (st.loadD v).env = st.env := rfl
@[simp] theorem State.loadD_draws (st : State) (v : Word) : (st.loadD v).draws = st.draws := rfl

/-! ## `State.loadX` -/

@[simp] theorem State.loadX_a (st : State) (v : Word) : (st.loadX v).a = st.a := rfl
@[simp] theorem State.loadX_b (st : State) (v : Word) : (st.loadX v).b = st.b := rfl
@[simp] theorem State.loadX_x (st : State) (v : Word) : (st.loadX v).x = v := rfl
@[simp] theorem State.loadX_y (st : State) (v : Word) : (st.loadX v).y = st.y := rfl
@[simp] theorem State.loadX_u (st : State) (v : Word) : (st.loadX v).u = st.u := rfl
@[simp] theorem State.loadX_s (st : State) (v : Word) : (st.loadX v).s = st.s := rfl
@[simp] theorem State.loadX_pc (st : State) (v : Word) : (st.loadX v).pc = st.pc := rfl
@[simp] theorem State.loadX_dp (st : State) (v : Word) : (st.loadX v).dp = st.dp := rfl
@[simp] theorem State.loadX_cc (st : State) (v : Word) : (st.loadX v).cc = moveFlags16 v st.cc := rfl
@[simp] theorem State.loadX_nmiArmed (st : State) (v : Word) : (st.loadX v).nmiArmed = st.nmiArmed := rfl
@[simp] theorem State.loadX_nmiPending (st : State) (v : Word) : (st.loadX v).nmiPending = st.nmiPending := rfl
@[simp] theorem State.loadX_runState (st : State) (v : Word) : (st.loadX v).runState = st.runState := rfl
@[simp] theorem State.loadX_temp (st : State) (v : Word) : (st.loadX v).temp = st.temp := rfl
@[simp] theorem State.loadX_mem (st : State) (v : Word) : (st.loadX v).mem = st.mem := rfl
@[simp] theorem State.loadX_map (st : State) (v : Word) : (st.loadX v).map = st.map := rfl
@[simp] theorem State.loadX_devices (st : State) (v : Word) : (st.loadX v).devices = st.devices := rfl
@[simp] theorem State.loadX_env (st : State) (v : Word) : (st.loadX v).env = st.env := rfl
@[simp] theorem State.loadX_draws (st : State) (v : Word) : (st.loadX v).draws = st.draws := rfl

/-! ## `State.loadY` -/

@[simp] theorem State.loadY_a (st : State) (v : Word) : (st.loadY v).a = st.a := rfl
@[simp] theorem State.loadY_b (st : State) (v : Word) : (st.loadY v).b = st.b := rfl
@[simp] theorem State.loadY_x (st : State) (v : Word) : (st.loadY v).x = st.x := rfl
@[simp] theorem State.loadY_y (st : State) (v : Word) : (st.loadY v).y = v := rfl
@[simp] theorem State.loadY_u (st : State) (v : Word) : (st.loadY v).u = st.u := rfl
@[simp] theorem State.loadY_s (st : State) (v : Word) : (st.loadY v).s = st.s := rfl
@[simp] theorem State.loadY_pc (st : State) (v : Word) : (st.loadY v).pc = st.pc := rfl
@[simp] theorem State.loadY_dp (st : State) (v : Word) : (st.loadY v).dp = st.dp := rfl
@[simp] theorem State.loadY_cc (st : State) (v : Word) : (st.loadY v).cc = moveFlags16 v st.cc := rfl
@[simp] theorem State.loadY_nmiArmed (st : State) (v : Word) : (st.loadY v).nmiArmed = st.nmiArmed := rfl
@[simp] theorem State.loadY_nmiPending (st : State) (v : Word) : (st.loadY v).nmiPending = st.nmiPending := rfl
@[simp] theorem State.loadY_runState (st : State) (v : Word) : (st.loadY v).runState = st.runState := rfl
@[simp] theorem State.loadY_temp (st : State) (v : Word) : (st.loadY v).temp = st.temp := rfl
@[simp] theorem State.loadY_mem (st : State) (v : Word) : (st.loadY v).mem = st.mem := rfl
@[simp] theorem State.loadY_map (st : State) (v : Word) : (st.loadY v).map = st.map := rfl
@[simp] theorem State.loadY_devices (st : State) (v : Word) : (st.loadY v).devices = st.devices := rfl
@[simp] theorem State.loadY_env (st : State) (v : Word) : (st.loadY v).env = st.env := rfl
@[simp] theorem State.loadY_draws (st : State) (v : Word) : (st.loadY v).draws = st.draws := rfl

/-! ## `State.loadU` -/

@[simp] theorem State.loadU_a (st : State) (v : Word) : (st.loadU v).a = st.a := rfl
@[simp] theorem State.loadU_b (st : State) (v : Word) : (st.loadU v).b = st.b := rfl
@[simp] theorem State.loadU_x (st : State) (v : Word) : (st.loadU v).x = st.x := rfl
@[simp] theorem State.loadU_y (st : State) (v : Word) : (st.loadU v).y = st.y := rfl
@[simp] theorem State.loadU_u (st : State) (v : Word) : (st.loadU v).u = v := rfl
@[simp] theorem State.loadU_s (st : State) (v : Word) : (st.loadU v).s = st.s := rfl
@[simp] theorem State.loadU_pc (st : State) (v : Word) : (st.loadU v).pc = st.pc := rfl
@[simp] theorem State.loadU_dp (st : State) (v : Word) : (st.loadU v).dp = st.dp := rfl
@[simp] theorem State.loadU_cc (st : State) (v : Word) : (st.loadU v).cc = moveFlags16 v st.cc := rfl
@[simp] theorem State.loadU_nmiArmed (st : State) (v : Word) : (st.loadU v).nmiArmed = st.nmiArmed := rfl
@[simp] theorem State.loadU_nmiPending (st : State) (v : Word) : (st.loadU v).nmiPending = st.nmiPending := rfl
@[simp] theorem State.loadU_runState (st : State) (v : Word) : (st.loadU v).runState = st.runState := rfl
@[simp] theorem State.loadU_temp (st : State) (v : Word) : (st.loadU v).temp = st.temp := rfl
@[simp] theorem State.loadU_mem (st : State) (v : Word) : (st.loadU v).mem = st.mem := rfl
@[simp] theorem State.loadU_map (st : State) (v : Word) : (st.loadU v).map = st.map := rfl
@[simp] theorem State.loadU_devices (st : State) (v : Word) : (st.loadU v).devices = st.devices := rfl
@[simp] theorem State.loadU_env (st : State) (v : Word) : (st.loadU v).env = st.env := rfl
@[simp] theorem State.loadU_draws (st : State) (v : Word) : (st.loadU v).draws = st.draws := rfl

/-! ## `State.unspecifyForReset` -/

@[simp] theorem State.unspecifyForReset_a (st : State) : (st.unspecifyForReset).a = Config.freeByte st.draws := rfl
@[simp] theorem State.unspecifyForReset_b (st : State) : (st.unspecifyForReset).b = Config.freeByte (st.draws + 1) := rfl
@[simp] theorem State.unspecifyForReset_x (st : State) : (st.unspecifyForReset).x = Config.freeWord (st.draws + 2) := rfl
@[simp] theorem State.unspecifyForReset_y (st : State) : (st.unspecifyForReset).y = Config.freeWord (st.draws + 3) := rfl
@[simp] theorem State.unspecifyForReset_u (st : State) : (st.unspecifyForReset).u = Config.freeWord (st.draws + 4) := rfl
@[simp] theorem State.unspecifyForReset_s (st : State) : (st.unspecifyForReset).s = Config.freeWord (st.draws + 5) := rfl
@[simp] theorem State.unspecifyForReset_pc (st : State) : (st.unspecifyForReset).pc = st.pc := rfl
@[simp] theorem State.unspecifyForReset_dp (st : State) : (st.unspecifyForReset).dp = st.dp := rfl
@[simp] theorem State.unspecifyForReset_cc (st : State) : (st.unspecifyForReset).cc = putFlag .i true (putFlag .f true (Config.freeByte (st.draws + 6))) := rfl
@[simp] theorem State.unspecifyForReset_nmiArmed (st : State) : (st.unspecifyForReset).nmiArmed = st.nmiArmed := rfl
@[simp] theorem State.unspecifyForReset_nmiPending (st : State) : (st.unspecifyForReset).nmiPending = st.nmiPending := rfl
@[simp] theorem State.unspecifyForReset_runState (st : State) : (st.unspecifyForReset).runState = st.runState := rfl
@[simp] theorem State.unspecifyForReset_temp (st : State) : (st.unspecifyForReset).temp = st.temp := rfl
@[simp] theorem State.unspecifyForReset_mem (st : State) : (st.unspecifyForReset).mem = st.mem := rfl
@[simp] theorem State.unspecifyForReset_map (st : State) : (st.unspecifyForReset).map = st.map := rfl
@[simp] theorem State.unspecifyForReset_devices (st : State) : (st.unspecifyForReset).devices = st.devices := rfl
@[simp] theorem State.unspecifyForReset_env (st : State) : (st.unspecifyForReset).env = st.env := rfl
@[simp] theorem State.unspecifyForReset_draws (st : State) : (st.unspecifyForReset).draws = st.draws + 7 := rfl

/-! ## `State.drawBit` -/

@[simp] theorem State.drawBit_a (st : State) : (st.drawBit.2).a = st.a := rfl
@[simp] theorem State.drawBit_b (st : State) : (st.drawBit.2).b = st.b := rfl
@[simp] theorem State.drawBit_x (st : State) : (st.drawBit.2).x = st.x := rfl
@[simp] theorem State.drawBit_y (st : State) : (st.drawBit.2).y = st.y := rfl
@[simp] theorem State.drawBit_u (st : State) : (st.drawBit.2).u = st.u := rfl
@[simp] theorem State.drawBit_s (st : State) : (st.drawBit.2).s = st.s := rfl
@[simp] theorem State.drawBit_pc (st : State) : (st.drawBit.2).pc = st.pc := rfl
@[simp] theorem State.drawBit_dp (st : State) : (st.drawBit.2).dp = st.dp := rfl
@[simp] theorem State.drawBit_cc (st : State) : (st.drawBit.2).cc = st.cc := rfl
@[simp] theorem State.drawBit_nmiArmed (st : State) : (st.drawBit.2).nmiArmed = st.nmiArmed := rfl
@[simp] theorem State.drawBit_nmiPending (st : State) : (st.drawBit.2).nmiPending = st.nmiPending := rfl
@[simp] theorem State.drawBit_runState (st : State) : (st.drawBit.2).runState = st.runState := rfl
@[simp] theorem State.drawBit_temp (st : State) : (st.drawBit.2).temp = st.temp := rfl
@[simp] theorem State.drawBit_mem (st : State) : (st.drawBit.2).mem = st.mem := rfl
@[simp] theorem State.drawBit_map (st : State) : (st.drawBit.2).map = st.map := rfl
@[simp] theorem State.drawBit_devices (st : State) : (st.drawBit.2).devices = st.devices := rfl
@[simp] theorem State.drawBit_env (st : State) : (st.drawBit.2).env = st.env := rfl
@[simp] theorem State.drawBit_draws (st : State) : (st.drawBit.2).draws = st.draws + 1 := rfl

/-! ## `State.drawByte` -/

@[simp] theorem State.drawByte_a (st : State) : (st.drawByte.2).a = st.a := rfl
@[simp] theorem State.drawByte_b (st : State) : (st.drawByte.2).b = st.b := rfl
@[simp] theorem State.drawByte_x (st : State) : (st.drawByte.2).x = st.x := rfl
@[simp] theorem State.drawByte_y (st : State) : (st.drawByte.2).y = st.y := rfl
@[simp] theorem State.drawByte_u (st : State) : (st.drawByte.2).u = st.u := rfl
@[simp] theorem State.drawByte_s (st : State) : (st.drawByte.2).s = st.s := rfl
@[simp] theorem State.drawByte_pc (st : State) : (st.drawByte.2).pc = st.pc := rfl
@[simp] theorem State.drawByte_dp (st : State) : (st.drawByte.2).dp = st.dp := rfl
@[simp] theorem State.drawByte_cc (st : State) : (st.drawByte.2).cc = st.cc := rfl
@[simp] theorem State.drawByte_nmiArmed (st : State) : (st.drawByte.2).nmiArmed = st.nmiArmed := rfl
@[simp] theorem State.drawByte_nmiPending (st : State) : (st.drawByte.2).nmiPending = st.nmiPending := rfl
@[simp] theorem State.drawByte_runState (st : State) : (st.drawByte.2).runState = st.runState := rfl
@[simp] theorem State.drawByte_temp (st : State) : (st.drawByte.2).temp = st.temp := rfl
@[simp] theorem State.drawByte_mem (st : State) : (st.drawByte.2).mem = st.mem := rfl
@[simp] theorem State.drawByte_map (st : State) : (st.drawByte.2).map = st.map := rfl
@[simp] theorem State.drawByte_devices (st : State) : (st.drawByte.2).devices = st.devices := rfl
@[simp] theorem State.drawByte_env (st : State) : (st.drawByte.2).env = st.env := rfl
@[simp] theorem State.drawByte_draws (st : State) : (st.drawByte.2).draws = st.draws + 1 := rfl

/-! ## `State.setPtr`: what no pointer register's update changes -/

@[simp] theorem State.setPtr_a (st : State) (r : PtrReg) (v : Word) : (st.setPtr r v).a = st.a := by cases r <;> rfl
@[simp] theorem State.setPtr_b (st : State) (r : PtrReg) (v : Word) : (st.setPtr r v).b = st.b := by cases r <;> rfl
@[simp] theorem State.setPtr_pc (st : State) (r : PtrReg) (v : Word) : (st.setPtr r v).pc = st.pc := by cases r <;> rfl
@[simp] theorem State.setPtr_dp (st : State) (r : PtrReg) (v : Word) : (st.setPtr r v).dp = st.dp := by cases r <;> rfl
@[simp] theorem State.setPtr_cc (st : State) (r : PtrReg) (v : Word) : (st.setPtr r v).cc = st.cc := by cases r <;> rfl
@[simp] theorem State.setPtr_nmiArmed (st : State) (r : PtrReg) (v : Word) : (st.setPtr r v).nmiArmed = st.nmiArmed := by cases r <;> rfl
@[simp] theorem State.setPtr_nmiPending (st : State) (r : PtrReg) (v : Word) : (st.setPtr r v).nmiPending = st.nmiPending := by cases r <;> rfl
@[simp] theorem State.setPtr_runState (st : State) (r : PtrReg) (v : Word) : (st.setPtr r v).runState = st.runState := by cases r <;> rfl
@[simp] theorem State.setPtr_temp (st : State) (r : PtrReg) (v : Word) : (st.setPtr r v).temp = st.temp := by cases r <;> rfl
@[simp] theorem State.setPtr_mem (st : State) (r : PtrReg) (v : Word) : (st.setPtr r v).mem = st.mem := by cases r <;> rfl
@[simp] theorem State.setPtr_map (st : State) (r : PtrReg) (v : Word) : (st.setPtr r v).map = st.map := by cases r <;> rfl
@[simp] theorem State.setPtr_devices (st : State) (r : PtrReg) (v : Word) : (st.setPtr r v).devices = st.devices := by cases r <;> rfl
@[simp] theorem State.setPtr_env (st : State) (r : PtrReg) (v : Word) : (st.setPtr r v).env = st.env := by cases r <;> rfl
@[simp] theorem State.setPtr_draws (st : State) (r : PtrReg) (v : Word) : (st.setPtr r v).draws = st.draws := by cases r <;> rfl

/-! ## `State.setPtr` of X -/

@[simp] theorem State.setPtrX_x (st : State) (v : Word) : (st.setPtr .x v).x = v := rfl
@[simp] theorem State.setPtrX_y (st : State) (v : Word) : (st.setPtr .x v).y = st.y := rfl
@[simp] theorem State.setPtrX_u (st : State) (v : Word) : (st.setPtr .x v).u = st.u := rfl
@[simp] theorem State.setPtrX_s (st : State) (v : Word) : (st.setPtr .x v).s = st.s := rfl

/-! ## `State.setPtr` of Y -/

@[simp] theorem State.setPtrY_x (st : State) (v : Word) : (st.setPtr .y v).x = st.x := rfl
@[simp] theorem State.setPtrY_y (st : State) (v : Word) : (st.setPtr .y v).y = v := rfl
@[simp] theorem State.setPtrY_u (st : State) (v : Word) : (st.setPtr .y v).u = st.u := rfl
@[simp] theorem State.setPtrY_s (st : State) (v : Word) : (st.setPtr .y v).s = st.s := rfl

/-! ## `State.setPtr` of U -/

@[simp] theorem State.setPtrU_x (st : State) (v : Word) : (st.setPtr .u v).x = st.x := rfl
@[simp] theorem State.setPtrU_y (st : State) (v : Word) : (st.setPtr .u v).y = st.y := rfl
@[simp] theorem State.setPtrU_u (st : State) (v : Word) : (st.setPtr .u v).u = v := rfl
@[simp] theorem State.setPtrU_s (st : State) (v : Word) : (st.setPtr .u v).s = st.s := rfl

/-! ## `State.setPtr` of S -/

@[simp] theorem State.setPtrS_x (st : State) (v : Word) : (st.setPtr .s v).x = st.x := rfl
@[simp] theorem State.setPtrS_y (st : State) (v : Word) : (st.setPtr .s v).y = st.y := rfl
@[simp] theorem State.setPtrS_u (st : State) (v : Word) : (st.setPtr .s v).u = st.u := rfl
@[simp] theorem State.setPtrS_s (st : State) (v : Word) : (st.setPtr .s v).s = v := rfl

/-! ## `State.setSp` -/

@[simp] theorem State.setSp_a (st : State) (k : Stack) (v : Word) : (st.setSp k v).a = st.a := by cases k <;> rfl
@[simp] theorem State.setSp_b (st : State) (k : Stack) (v : Word) : (st.setSp k v).b = st.b := by cases k <;> rfl
@[simp] theorem State.setSp_x (st : State) (k : Stack) (v : Word) : (st.setSp k v).x = st.x := by cases k <;> rfl
@[simp] theorem State.setSp_y (st : State) (k : Stack) (v : Word) : (st.setSp k v).y = st.y := by cases k <;> rfl
@[simp] theorem State.setSp_pc (st : State) (k : Stack) (v : Word) : (st.setSp k v).pc = st.pc := by cases k <;> rfl
@[simp] theorem State.setSp_dp (st : State) (k : Stack) (v : Word) : (st.setSp k v).dp = st.dp := by cases k <;> rfl
@[simp] theorem State.setSp_cc (st : State) (k : Stack) (v : Word) : (st.setSp k v).cc = st.cc := by cases k <;> rfl
@[simp] theorem State.setSp_nmiArmed (st : State) (k : Stack) (v : Word) : (st.setSp k v).nmiArmed = st.nmiArmed := by cases k <;> rfl
@[simp] theorem State.setSp_nmiPending (st : State) (k : Stack) (v : Word) : (st.setSp k v).nmiPending = st.nmiPending := by cases k <;> rfl
@[simp] theorem State.setSp_runState (st : State) (k : Stack) (v : Word) : (st.setSp k v).runState = st.runState := by cases k <;> rfl
@[simp] theorem State.setSp_temp (st : State) (k : Stack) (v : Word) : (st.setSp k v).temp = st.temp := by cases k <;> rfl
@[simp] theorem State.setSp_mem (st : State) (k : Stack) (v : Word) : (st.setSp k v).mem = st.mem := by cases k <;> rfl
@[simp] theorem State.setSp_map (st : State) (k : Stack) (v : Word) : (st.setSp k v).map = st.map := by cases k <;> rfl
@[simp] theorem State.setSp_devices (st : State) (k : Stack) (v : Word) : (st.setSp k v).devices = st.devices := by cases k <;> rfl
@[simp] theorem State.setSp_env (st : State) (k : Stack) (v : Word) : (st.setSp k v).env = st.env := by cases k <;> rfl
@[simp] theorem State.setSp_draws (st : State) (k : Stack) (v : Word) : (st.setSp k v).draws = st.draws := by cases k <;> rfl

/-! ## `State.setSp` of S -/

@[simp] theorem State.setSpS_u (st : State) (v : Word) : (st.setSp .s v).u = st.u := rfl
@[simp] theorem State.setSpS_s (st : State) (v : Word) : (st.setSp .s v).s = v := rfl

/-! ## `State.setSp` of U -/

@[simp] theorem State.setSpU_u (st : State) (v : Word) : (st.setSp .u v).u = v := rfl
@[simp] theorem State.setSpU_s (st : State) (v : Word) : (st.setSp .u v).s = st.s := rfl

/-! ## `State.writeReg`: what no register's update changes -/

@[simp] theorem State.writeReg_nmiPending (st : State) (r : Reg) (v : Word) : (st.writeReg r v).nmiPending = st.nmiPending := by cases r <;> rfl
@[simp] theorem State.writeReg_runState (st : State) (r : Reg) (v : Word) : (st.writeReg r v).runState = st.runState := by cases r <;> rfl
@[simp] theorem State.writeReg_temp (st : State) (r : Reg) (v : Word) : (st.writeReg r v).temp = st.temp := by cases r <;> rfl
@[simp] theorem State.writeReg_mem (st : State) (r : Reg) (v : Word) : (st.writeReg r v).mem = st.mem := by cases r <;> rfl
@[simp] theorem State.writeReg_map (st : State) (r : Reg) (v : Word) : (st.writeReg r v).map = st.map := by cases r <;> rfl
@[simp] theorem State.writeReg_devices (st : State) (r : Reg) (v : Word) : (st.writeReg r v).devices = st.devices := by cases r <;> rfl
@[simp] theorem State.writeReg_env (st : State) (r : Reg) (v : Word) : (st.writeReg r v).env = st.env := by cases r <;> rfl
@[simp] theorem State.writeReg_draws (st : State) (r : Reg) (v : Word) : (st.writeReg r v).draws = st.draws := by cases r <;> rfl

/-! ## `State.deviceDone` -/

@[simp] theorem State.deviceDone_a (st : State) (d : Device) (regs : List Nat) : (st.deviceDone d regs).a = st.a := rfl
@[simp] theorem State.deviceDone_b (st : State) (d : Device) (regs : List Nat) : (st.deviceDone d regs).b = st.b := rfl
@[simp] theorem State.deviceDone_x (st : State) (d : Device) (regs : List Nat) : (st.deviceDone d regs).x = st.x := rfl
@[simp] theorem State.deviceDone_y (st : State) (d : Device) (regs : List Nat) : (st.deviceDone d regs).y = st.y := rfl
@[simp] theorem State.deviceDone_u (st : State) (d : Device) (regs : List Nat) : (st.deviceDone d regs).u = st.u := rfl
@[simp] theorem State.deviceDone_s (st : State) (d : Device) (regs : List Nat) : (st.deviceDone d regs).s = st.s := rfl
@[simp] theorem State.deviceDone_pc (st : State) (d : Device) (regs : List Nat) : (st.deviceDone d regs).pc = st.pc := rfl
@[simp] theorem State.deviceDone_dp (st : State) (d : Device) (regs : List Nat) : (st.deviceDone d regs).dp = st.dp := rfl
@[simp] theorem State.deviceDone_cc (st : State) (d : Device) (regs : List Nat) : (st.deviceDone d regs).cc = st.cc := rfl
@[simp] theorem State.deviceDone_nmiArmed (st : State) (d : Device) (regs : List Nat) : (st.deviceDone d regs).nmiArmed = st.nmiArmed := rfl
@[simp] theorem State.deviceDone_nmiPending (st : State) (d : Device) (regs : List Nat) : (st.deviceDone d regs).nmiPending = st.nmiPending := rfl
@[simp] theorem State.deviceDone_runState (st : State) (d : Device) (regs : List Nat) : (st.deviceDone d regs).runState = st.runState := rfl
@[simp] theorem State.deviceDone_temp (st : State) (d : Device) (regs : List Nat) : (st.deviceDone d regs).temp = st.temp := rfl
@[simp] theorem State.deviceDone_mem (st : State) (d : Device) (regs : List Nat) : (st.deviceDone d regs).mem = st.mem := rfl
@[simp] theorem State.deviceDone_map (st : State) (d : Device) (regs : List Nat) : (st.deviceDone d regs).map = st.map := rfl
@[simp] theorem State.deviceDone_devices (st : State) (d : Device) (regs : List Nat) : (st.deviceDone d regs).devices = st.devices.set d.number regs := rfl
@[simp] theorem State.deviceDone_env (st : State) (d : Device) (regs : List Nat) : (st.deviceDone d regs).env = st.env := rfl
@[simp] theorem State.deviceDone_draws (st : State) (d : Device) (regs : List Nat) : (st.deviceDone d regs).draws = st.draws + 1 := rfl

/-! ## The two functions of a device -/

/-- A read of a device changes its registers and takes one draw. -/
theorem State.deviceRead_state (st : State) (d : Device) (addr : Word) :
    (st.deviceRead d addr).2 =
      st.deviceDone d ((st.deviceAccess d addr 0x00#8).after d.onRead) := rfl

/-- A write to a device changes its registers and takes one draw. -/
theorem State.deviceWrite_state (st : State) (d : Device) (addr : Word) (v : Byte) :
    st.deviceWrite d addr v = st.deviceDone d ((st.deviceAccess d addr v).after d.onWrite) := rfl

/-! ## `State.store` -/

@[simp] theorem State.store_a (st : State) (addr : Word) (v : Byte) : (st.store addr v).a = st.a := by unfold State.store; split <;> rfl
@[simp] theorem State.store_b (st : State) (addr : Word) (v : Byte) : (st.store addr v).b = st.b := by unfold State.store; split <;> rfl
@[simp] theorem State.store_x (st : State) (addr : Word) (v : Byte) : (st.store addr v).x = st.x := by unfold State.store; split <;> rfl
@[simp] theorem State.store_y (st : State) (addr : Word) (v : Byte) : (st.store addr v).y = st.y := by unfold State.store; split <;> rfl
@[simp] theorem State.store_u (st : State) (addr : Word) (v : Byte) : (st.store addr v).u = st.u := by unfold State.store; split <;> rfl
@[simp] theorem State.store_s (st : State) (addr : Word) (v : Byte) : (st.store addr v).s = st.s := by unfold State.store; split <;> rfl
@[simp] theorem State.store_pc (st : State) (addr : Word) (v : Byte) : (st.store addr v).pc = st.pc := by unfold State.store; split <;> rfl
@[simp] theorem State.store_dp (st : State) (addr : Word) (v : Byte) : (st.store addr v).dp = st.dp := by unfold State.store; split <;> rfl
@[simp] theorem State.store_cc (st : State) (addr : Word) (v : Byte) : (st.store addr v).cc = st.cc := by unfold State.store; split <;> rfl
@[simp] theorem State.store_nmiArmed (st : State) (addr : Word) (v : Byte) : (st.store addr v).nmiArmed = st.nmiArmed := by unfold State.store; split <;> rfl
@[simp] theorem State.store_nmiPending (st : State) (addr : Word) (v : Byte) : (st.store addr v).nmiPending = st.nmiPending := by unfold State.store; split <;> rfl
@[simp] theorem State.store_runState (st : State) (addr : Word) (v : Byte) : (st.store addr v).runState = st.runState := by unfold State.store; split <;> rfl
@[simp] theorem State.store_temp (st : State) (addr : Word) (v : Byte) : (st.store addr v).temp = st.temp := by unfold State.store; split <;> rfl
@[simp] theorem State.store_map (st : State) (addr : Word) (v : Byte) : (st.store addr v).map = st.map := by unfold State.store; split <;> rfl
@[simp] theorem State.store_env (st : State) (addr : Word) (v : Byte) : (st.store addr v).env = st.env := by unfold State.store; split <;> rfl

/-! ## `State.maskFor` -/

@[simp] theorem State.maskFor_a (st : State) (ev : Event) : (st.maskFor ev).a = st.a := by cases ev <;> rfl
@[simp] theorem State.maskFor_b (st : State) (ev : Event) : (st.maskFor ev).b = st.b := by cases ev <;> rfl
@[simp] theorem State.maskFor_x (st : State) (ev : Event) : (st.maskFor ev).x = st.x := by cases ev <;> rfl
@[simp] theorem State.maskFor_y (st : State) (ev : Event) : (st.maskFor ev).y = st.y := by cases ev <;> rfl
@[simp] theorem State.maskFor_u (st : State) (ev : Event) : (st.maskFor ev).u = st.u := by cases ev <;> rfl
@[simp] theorem State.maskFor_s (st : State) (ev : Event) : (st.maskFor ev).s = st.s := by cases ev <;> rfl
@[simp] theorem State.maskFor_pc (st : State) (ev : Event) : (st.maskFor ev).pc = st.pc := by cases ev <;> rfl
@[simp] theorem State.maskFor_dp (st : State) (ev : Event) : (st.maskFor ev).dp = st.dp := by cases ev <;> rfl
@[simp] theorem State.maskFor_nmiArmed (st : State) (ev : Event) : (st.maskFor ev).nmiArmed = st.nmiArmed := by cases ev <;> rfl
@[simp] theorem State.maskFor_nmiPending (st : State) (ev : Event) : (st.maskFor ev).nmiPending = st.nmiPending := by cases ev <;> rfl
@[simp] theorem State.maskFor_runState (st : State) (ev : Event) : (st.maskFor ev).runState = st.runState := by cases ev <;> rfl
@[simp] theorem State.maskFor_temp (st : State) (ev : Event) : (st.maskFor ev).temp = st.temp := by cases ev <;> rfl
@[simp] theorem State.maskFor_mem (st : State) (ev : Event) : (st.maskFor ev).mem = st.mem := by cases ev <;> rfl
@[simp] theorem State.maskFor_map (st : State) (ev : Event) : (st.maskFor ev).map = st.map := by cases ev <;> rfl
@[simp] theorem State.maskFor_devices (st : State) (ev : Event) : (st.maskFor ev).devices = st.devices := by cases ev <;> rfl
@[simp] theorem State.maskFor_env (st : State) (ev : Event) : (st.maskFor ev).env = st.env := by cases ev <;> rfl
@[simp] theorem State.maskFor_draws (st : State) (ev : Event) : (st.maskFor ev).draws = st.draws := by cases ev <;> rfl

/-! ## `State.acknowledge` -/

@[simp] theorem State.acknowledge_a (st : State) (ev : Event) : (st.acknowledge ev).a = st.a := by cases ev <;> rfl
@[simp] theorem State.acknowledge_b (st : State) (ev : Event) : (st.acknowledge ev).b = st.b := by cases ev <;> rfl
@[simp] theorem State.acknowledge_x (st : State) (ev : Event) : (st.acknowledge ev).x = st.x := by cases ev <;> rfl
@[simp] theorem State.acknowledge_y (st : State) (ev : Event) : (st.acknowledge ev).y = st.y := by cases ev <;> rfl
@[simp] theorem State.acknowledge_u (st : State) (ev : Event) : (st.acknowledge ev).u = st.u := by cases ev <;> rfl
@[simp] theorem State.acknowledge_s (st : State) (ev : Event) : (st.acknowledge ev).s = st.s := by cases ev <;> rfl
@[simp] theorem State.acknowledge_pc (st : State) (ev : Event) : (st.acknowledge ev).pc = st.pc := by cases ev <;> rfl
@[simp] theorem State.acknowledge_dp (st : State) (ev : Event) : (st.acknowledge ev).dp = st.dp := by cases ev <;> rfl
@[simp] theorem State.acknowledge_cc (st : State) (ev : Event) : (st.acknowledge ev).cc = st.cc := by cases ev <;> rfl
@[simp] theorem State.acknowledge_nmiArmed (st : State) (ev : Event) : (st.acknowledge ev).nmiArmed = st.nmiArmed := by cases ev <;> rfl
@[simp] theorem State.acknowledge_runState (st : State) (ev : Event) : (st.acknowledge ev).runState = st.runState := by cases ev <;> rfl
@[simp] theorem State.acknowledge_temp (st : State) (ev : Event) : (st.acknowledge ev).temp = st.temp := by cases ev <;> rfl
@[simp] theorem State.acknowledge_mem (st : State) (ev : Event) : (st.acknowledge ev).mem = st.mem := by cases ev <;> rfl
@[simp] theorem State.acknowledge_map (st : State) (ev : Event) : (st.acknowledge ev).map = st.map := by cases ev <;> rfl
@[simp] theorem State.acknowledge_devices (st : State) (ev : Event) : (st.acknowledge ev).devices = st.devices := by cases ev <;> rfl
@[simp] theorem State.acknowledge_env (st : State) (ev : Event) : (st.acknowledge ev).env = st.env := by cases ev <;> rfl
@[simp] theorem State.acknowledge_draws (st : State) (ev : Event) : (st.acknowledge ev).draws = st.draws := by cases ev <;> rfl

/-! ## `State.latchNmi` -/

@[simp] theorem State.latchNmi_a (st : State) (inp : EnvInput) : (st.latchNmi inp).a = st.a := by unfold State.latchNmi; split <;> rfl
@[simp] theorem State.latchNmi_b (st : State) (inp : EnvInput) : (st.latchNmi inp).b = st.b := by unfold State.latchNmi; split <;> rfl
@[simp] theorem State.latchNmi_x (st : State) (inp : EnvInput) : (st.latchNmi inp).x = st.x := by unfold State.latchNmi; split <;> rfl
@[simp] theorem State.latchNmi_y (st : State) (inp : EnvInput) : (st.latchNmi inp).y = st.y := by unfold State.latchNmi; split <;> rfl
@[simp] theorem State.latchNmi_u (st : State) (inp : EnvInput) : (st.latchNmi inp).u = st.u := by unfold State.latchNmi; split <;> rfl
@[simp] theorem State.latchNmi_s (st : State) (inp : EnvInput) : (st.latchNmi inp).s = st.s := by unfold State.latchNmi; split <;> rfl
@[simp] theorem State.latchNmi_pc (st : State) (inp : EnvInput) : (st.latchNmi inp).pc = st.pc := by unfold State.latchNmi; split <;> rfl
@[simp] theorem State.latchNmi_dp (st : State) (inp : EnvInput) : (st.latchNmi inp).dp = st.dp := by unfold State.latchNmi; split <;> rfl
@[simp] theorem State.latchNmi_cc (st : State) (inp : EnvInput) : (st.latchNmi inp).cc = st.cc := by unfold State.latchNmi; split <;> rfl
@[simp] theorem State.latchNmi_nmiArmed (st : State) (inp : EnvInput) : (st.latchNmi inp).nmiArmed = st.nmiArmed := by unfold State.latchNmi; split <;> rfl
@[simp] theorem State.latchNmi_runState (st : State) (inp : EnvInput) : (st.latchNmi inp).runState = st.runState := by unfold State.latchNmi; split <;> rfl
@[simp] theorem State.latchNmi_temp (st : State) (inp : EnvInput) : (st.latchNmi inp).temp = st.temp := by unfold State.latchNmi; split <;> rfl
@[simp] theorem State.latchNmi_mem (st : State) (inp : EnvInput) : (st.latchNmi inp).mem = st.mem := by unfold State.latchNmi; split <;> rfl
@[simp] theorem State.latchNmi_map (st : State) (inp : EnvInput) : (st.latchNmi inp).map = st.map := by unfold State.latchNmi; split <;> rfl
@[simp] theorem State.latchNmi_devices (st : State) (inp : EnvInput) : (st.latchNmi inp).devices = st.devices := by unfold State.latchNmi; split <;> rfl
@[simp] theorem State.latchNmi_env (st : State) (inp : EnvInput) : (st.latchNmi inp).env = st.env := by unfold State.latchNmi; split <;> rfl
@[simp] theorem State.latchNmi_draws (st : State) (inp : EnvInput) : (st.latchNmi inp).draws = st.draws := by unfold State.latchNmi; split <;> rfl

/-! ## Reading back what an update wrote -/

@[simp] theorem State.setPtr_ptr (st : State) (r : PtrReg) (v : Word) : (st.setPtr r v).ptr r = v := by
  cases r <;> rfl

theorem State.setPtr_ptr_other (st : State) (r q : PtrReg) (v : Word) (h : q ≠ r) :
    (st.setPtr r v).ptr q = st.ptr q := by
  cases r <;> cases q <;> first | rfl | exact absurd rfl h

@[simp] theorem State.setSp_sp (st : State) (k : Stack) (v : Word) : (st.setSp k v).sp k = v := by
  cases k <;> rfl

@[simp] theorem State.setSp_setSp (st : State) (k : Stack) (v w : Word) :
    (st.setSp k v).setSp k w = st.setSp k w := by
  cases k <;> rfl

@[simp] theorem State.setSp_same (st : State) (k : Stack) : st.setSp k (st.sp k) = st := by
  cases k <;> rfl

@[simp] theorem State.store_sp (st : State) (k : Stack) (addr : Word) (v : Byte) :
    (st.store addr v).sp k = st.sp k := by
  cases k <;> simp [State.sp]

@[simp] theorem State.store_ptr (st : State) (r : PtrReg) (addr : Word) (v : Byte) :
    (st.store addr v).ptr r = st.ptr r := by
  cases r <;> simp [State.ptr]

@[simp] theorem State.hold_ptr (st : State) (r : PtrReg) (ea : Word) : (st.hold ea).ptr r = st.ptr r := by
  cases r <;> rfl

@[simp] theorem State.hold_d (st : State) (ea : Word) : (st.hold ea).d = st.d := rfl

/-- A write changes memory, or the registers of a device with one draw taken, and no other field. -/
theorem State.store_eq (st : State) (addr : Word) (v : Byte) :
    st.store addr v =
      { st with mem := (st.store addr v).mem, devices := (st.store addr v).devices,
                draws := (st.store addr v).draws } := by
  unfold State.store
  split <;> rfl

/-- Moving a stack pointer and a write commute. -/
theorem State.store_setSp (st : State) (k : Stack) (w addr : Word) (v : Byte) :
    (st.setSp k w).store addr v = (st.store addr v).setSp k w := by
  unfold State.store State.kindAt
  rw [State.setSp_map]
  split <;> cases k <;> rfl

end Sys2Proof.Machine
end

