-- ==== Sys2Proof/Laws/Memory.lean ====
section
/-! SUPPORT. The laws of memory: read after write, the canonical form, and what an access through `MemMap`
can do (spec/20_memory.md R52 to R64). -/

namespace Sys2Proof.Machine

/-! ## The cells -/

/-- A read of the address just written gives the byte written. -/
theorem Memory.read_write_same (m : Memory) (a : Nat) (v : Byte) (low : Nat)
    (hm : m.wfFrom low = true) : (m.write a v).read a = v := by
  induction m generalizing low with
  | nil =>
    simp only [Memory.write]
    split <;> simp_all [Memory.read]
  | cons c m ih =>
    obtain ⟨k, w⟩ := c
    simp only [Memory.wfFrom, Bool.and_eq_true, decide_eq_true_eq] at hm
    have absent : ∀ (m : Memory) (low : Nat), m.wfFrom low = true → a < low →
        m.read a = Config.unwrittenByte := by
      intro m
      induction m with
      | nil => intros; rfl
      | cons c m ih =>
        intro low h hlt
        simp only [Memory.wfFrom, Bool.and_eq_true, decide_eq_true_eq] at h
        simp only [Memory.read]
        rw [if_neg (by omega), ih _ h.2 (by omega)]
    simp only [Memory.write]
    split
    · simp only [Memory.read]
      rw [if_neg (by omega), ih _ hm.2]
    · split
      · split
        · rename_i h1 h2 h3
          rw [absent m (k + 1) hm.2 (by omega), h3]
        · simp [Memory.read]
      · split
        · rename_i h1 h2 h3
          simp only [Memory.read]
          rw [if_neg h2, absent m (k + 1) hm.2 (by omega), h3]
        · simp [Memory.read]

/-- A write leaves every other address as it was. -/
theorem Memory.read_write_other (m : Memory) (a b : Nat) (v : Byte) (h : b ≠ a) :
    (m.write a v).read b = m.read b := by
  induction m with
  | nil =>
    simp only [Memory.write]
    split <;> simp [Memory.read, h.symm]
  | cons c m ih =>
    obtain ⟨k, w⟩ := c
    simp only [Memory.write]
    split
    · simp [Memory.read, ih]
    · split
      · split <;> simp_all [Memory.read, h.symm]
      · split <;> simp [Memory.read, h.symm]

/-- A write inside the space keeps the canonical form from an address on. -/
theorem Memory.wfFrom_write (m : Memory) (low a : Nat) (v : Byte) (hm : m.wfFrom low = true)
    (hlow : low ≤ a) (ha : a < 65536) : (m.write a v).wfFrom low = true := by
  induction m generalizing low with
  | nil =>
    simp only [Memory.write]
    split <;> simp_all [Memory.wfFrom]
  | cons c m ih =>
    obtain ⟨k, w⟩ := c
    have up : ∀ (m : Memory) (lo lo' : Nat), m.wfFrom lo = true → lo' ≤ lo → m.wfFrom lo' = true := by
      intro m lo lo' h hle
      cases m with
      | nil => rfl
      | cons c m =>
        simp only [Memory.wfFrom, Bool.and_eq_true, decide_eq_true_eq] at h ⊢
        exact ⟨⟨⟨by omega, h.1.1.2⟩, h.1.2⟩, h.2⟩
    simp only [Memory.wfFrom, Bool.and_eq_true, decide_eq_true_eq] at hm
    simp only [Memory.write]
    split
    · simp only [Memory.wfFrom, Bool.and_eq_true, decide_eq_true_eq]
      exact ⟨hm.1, ih (k + 1) hm.2 (by omega)⟩
    · split
      · split
        · exact up _ _ _ hm.2 (by omega)
        · simp only [Memory.wfFrom, Bool.and_eq_true, decide_eq_true_eq, bne_iff_ne]
          refine ⟨⟨⟨hlow, ha⟩, by assumption⟩, up _ _ _ hm.2 (by omega)⟩
      · split
        · simp only [Memory.wfFrom, Bool.and_eq_true, decide_eq_true_eq]
          exact hm
        · simp only [Memory.wfFrom, Bool.and_eq_true, decide_eq_true_eq, bne_iff_ne]
          have h1 := hm.1.2
          simp only [bne_iff_ne] at h1
          exact ⟨⟨⟨hlow, ha⟩, by assumption⟩, ⟨⟨⟨by omega, hm.1.1.2⟩, h1⟩, hm.2⟩⟩

/-- A write inside the space keeps the canonical form. -/
theorem Memory.wf_write (m : Memory) (a : Nat) (v : Byte) (hm : m.wf = true) (ha : a < 65536) :
    (m.write a v).wf = true :=
  Memory.wfFrom_write m 0 a v hm (Nat.zero_le a) ha

/-- The reset memory is in canonical form. -/
theorem reset_memory_wf : State.reset.mem.wf = true := rfl

/-! ## Addresses of the state -/

/-- A write at an address keeps the canonical form (addresses are below 65536). -/
theorem State.poke_wf (st : State) (addr : Word) (v : Byte) (h : st.mem.wf = true) :
    (st.poke addr v).mem.wf = true :=
  Memory.wf_write _ _ _ h addr.isLt

/-- Every answered write keeps the canonical form. -/
theorem State.store_wf (st : State) (addr : Word) (v : Byte) (h : st.mem.wf = true) :
    (st.store addr v).mem.wf = true := by
  unfold State.store
  split
  · exact st.poke_wf addr v h
  all_goals exact h

theorem State.peek_poke_same (st : State) (addr : Word) (v : Byte) (h : st.mem.wf = true) :
    (st.poke addr v).peek addr = v :=
  Memory.read_write_same _ _ _ 0 h

theorem State.peek_poke_other (st : State) (addr b : Word) (v : Byte) (h : b ≠ addr) :
    (st.poke addr v).peek b = st.peek b :=
  Memory.read_write_other _ _ _ _ fun e => h (BitVec.eq_of_toNat_eq e)

/-- RAM reads back what was stored. -/
theorem State.peek_store_ram (st : State) (addr : Word) (v : Byte) (h : st.mem.wf = true)
    (hk : st.kindAt addr = .ram) : (st.store addr v).peek addr = v := by
  simp only [State.store, hk]
  exact st.peek_poke_same addr v h

/-- A store changes no other address. -/
theorem State.peek_store_other (st : State) (addr b : Word) (v : Byte) (h : b ≠ addr) :
    (st.store addr v).peek b = st.peek b := by
  unfold State.store
  split
  · exact st.peek_poke_other addr b v h
  all_goals rfl

/-- A store to anything but RAM changes no memory (R61). -/
theorem State.store_mem_of_not_ram (st : State) (addr : Word) (v : Byte) (h : st.kindAt addr ≠ .ram) :
    (st.store addr v).mem = st.mem := by
  unfold State.store
  split
  · contradiction
  all_goals rfl

/-- A store to anything but a device changes no device and takes no draw (R61). -/
theorem State.store_devices_of_not_device (st : State) (addr : Word) (v : Byte)
    (h : ∀ d, st.kindAt addr ≠ .device d) :
    (st.store addr v).devices = st.devices ∧ (st.store addr v).draws = st.draws := by
  unfold State.store
  split
  case h_2 d hd => exact absurd hd (h d)
  all_goals exact ⟨rfl, rfl⟩

/-- A store to ROM or an open bus changes nothing (R61, log 9). -/
theorem State.store_lost (st : State) (addr : Word) (v : Byte)
    (h : st.kindAt addr = .rom ∨ st.kindAt addr = .openBus) : st.store addr v = st := by
  rcases h with h | h <;> simp [State.store, h]

/-- A store to a device is its write function (R61). -/
theorem State.store_device {st : State} {addr : Word} {d : Device} (v : Byte)
    (h : st.kindAt addr = .device d) : st.store addr v = st.deviceWrite d addr v := by
  simp [State.store, h]

@[simp] theorem State.store_kindAt (st : State) (addr b : Word) (v : Byte) :
    (st.store addr v).kindAt b = st.kindAt b := by
  simp [State.kindAt]

@[simp] theorem State.store_mapped (st : State) (addr b : Word) (v : Byte) :
    (st.store addr v).mapped b = st.mapped b := by
  simp [State.mapped]

@[simp] theorem State.store_backed (st : State) (addr b : Word) (v : Byte) :
    (st.store addr v).backed b = st.backed b := by
  simp [State.backed]

/-- RAM and ROM answer. -/
theorem State.mapped_of_backed {st : State} {addr : Word} (h : st.backed addr = true) :
    st.mapped addr = true := by
  simp only [State.backed, Bool.or_eq_true, beq_iff_eq] at h
  rcases h with h | h <;> simp [State.mapped, h]

/-! ## One-byte accesses -/

/-- A read of RAM or ROM gives the byte memory holds and has no side effect (R61). -/
theorem readByte_backed {st : State} {addr : Word} (h : st.backed addr = true) :
    readByte addr st = .next (st.peek addr, st) := by
  simp only [State.backed, Bool.or_eq_true, beq_iff_eq] at h
  rcases h with h | h <;> simp [readByte, h]

/-- A read of a device is its read function (R61). -/
theorem readByte_device {st : State} {addr : Word} {d : Device} (h : st.kindAt addr = .device d) :
    readByte addr st = .next (st.deviceRead d addr) := by
  simp [readByte, h]

/-- All that an answered read can do: give the byte memory holds, do as a device's read function says, or
give a draw (R61). -/
theorem readByte_eq_next {addr : Word} {st : State} {v : Byte} {t : State} :
    readByte addr st = .next (v, t) ↔
      (st.backed addr = true ∧ v = st.peek addr ∧ t = st) ∨
      (∃ d, st.kindAt addr = .device d ∧ (v, t) = st.deviceRead d addr) ∨
      (st.kindAt addr = .openBus ∧ v = Config.freeByte st.draws ∧
        t = { st with draws := st.draws + 1 }) := by
  unfold readByte State.backed State.drawByte
  cases st.kindAt addr with
  | device d => simp [eq_comm (a := st.deviceRead d addr)]
  | ram | rom => simp [eq_comm (a := v), eq_comm (a := t)]
  | unmapped => simp
  | openBus => simp [eq_comm (a := v), eq_comm (a := t)]

/-- A read is answered exactly where the address is mapped (R61). -/
theorem readByte_mapped {addr : Word} {st : State} (h : st.mapped addr = true) :
    ∃ v t, readByte addr st = .next (v, t) := by
  unfold State.mapped at h
  unfold readByte
  cases hk : st.kindAt addr <;> first | exact ⟨_, _, rfl⟩ | simp [hk] at h

/-- A read faults exactly at an unmapped address (R61). -/
theorem readByte_eq_fault {addr : Word} {st : State} {r : Fault} :
    readByte addr st = .fault r ↔ st.mapped addr = false ∧ r = .unmapped addr := by
  unfold readByte State.mapped
  cases st.kindAt addr <;> simp
  exact eq_comm

/-- No read is refused. -/
theorem readByte_ne_refused {addr : Word} {st : State} {r : Refusal} :
    readByte addr st ≠ .refused r := by
  unfold readByte
  cases st.kindAt addr <;> simp

/-- All that a read can change: the registers of a device and the count of draws. -/
theorem readByte_frame {addr : Word} {st : State} {v : Byte} {t : State}
    (h : readByte addr st = .next (v, t)) : t = { st with devices := t.devices, draws := t.draws } := by
  rcases readByte_eq_next.mp h with ⟨-, -, rfl⟩ | ⟨d, -, e⟩ | ⟨-, -, rfl⟩
  · rfl
  · rw [(Prod.mk.inj e).2]
    rfl
  · rfl

/-- A write to an address that answers (R61). -/
theorem writeByte_mapped {st : State} {addr : Word} {v : Byte} (h : st.mapped addr = true) :
    writeByte addr v st = .next (st.store addr v) := by
  unfold State.mapped at h
  unfold writeByte
  cases hk : st.kindAt addr <;> simp_all

/-- All that an answered write can do (R61). -/
theorem writeByte_eq_next {addr : Word} {v : Byte} {st t : State} :
    writeByte addr v st = .next t ↔ st.mapped addr = true ∧ t = st.store addr v := by
  unfold writeByte State.mapped
  cases st.kindAt addr <;> simp <;> exact eq_comm

/-- A write faults exactly at an unmapped address (R61). -/
theorem writeByte_eq_fault {addr : Word} {v : Byte} {st : State} {r : Fault} :
    writeByte addr v st = .fault r ↔ st.mapped addr = false ∧ r = .unmapped addr := by
  unfold writeByte State.mapped
  cases st.kindAt addr <;> simp
  exact eq_comm

/-! ## Two-byte accesses -/

/-- A 16-bit read of RAM or ROM (R53). -/
theorem readWord_backed {st : State} {addr : Word} (h0 : st.backed addr = true)
    (h1 : st.backed (addr + 1#16) = true) : readWord addr st = .next (st.peekWord addr, st) := by
  simp [readWord, readByte_backed h0, readByte_backed h1, State.peekWord]

/-- All that an answered 16-bit read can change: the registers of a device and the count of draws. -/
theorem readWord_frame {addr : Word} {st : State} {v : Word} {t : State}
    (h : readWord addr st = .next (v, t)) : t = { st with devices := t.devices, draws := t.draws } := by
  obtain ⟨⟨v0, t0⟩, h0, h'⟩ := andThen_eq_next.mp h
  obtain ⟨⟨v1, t1⟩, h1, h2⟩ := andThen_eq_next.mp h'
  simp only [Host.Outcome.next.injEq, Prod.mk.injEq] at h2
  obtain ⟨-, rfl⟩ := h2
  have e0 := readByte_frame h0
  have e1 := readByte_frame h1
  dsimp only at e0 e1
  rw [e1, e0]

/-- All that an answered 16-bit write can do: store the high byte, then the low byte above it (R53). -/
theorem writeWord_eq_next {addr v : Word} {st t : State} :
    writeWord addr v st = .next t ↔
      st.mapped addr = true ∧ st.mapped (addr + 1#16) = true ∧
        t = (st.store addr (highByte v)).store (addr + 1#16) (lowByte v) := by
  simp only [writeWord, andThen_eq_next, writeByte_eq_next]
  constructor
  · rintro ⟨u, ⟨h0, rfl⟩, h1, rfl⟩
    exact ⟨h0, by simpa using h1, rfl⟩
  · rintro ⟨h0, h1, rfl⟩
    exact ⟨_, ⟨h0, rfl⟩, by simpa using h1, rfl⟩

end Sys2Proof.Machine
end

