-- ==== Sys2Proof/Laws/Ops.lean ====
section
/-! SUPPORT. What each shared operation can do, said once: pushes and pulls, taking an exception,
returning from one, RESET and fetch (spec/44_register_stack.md R254; spec/60_exceptions.md R314 to R328). -/

namespace Sys2Proof.Machine

@[simp] theorem State.setSp_mapped (st : State) (k : Stack) (w addr : Word) :
    (st.setSp k w).mapped addr = st.mapped addr := by
  cases k <;> rfl

@[simp] theorem State.setSp_backed (st : State) (k : Stack) (w addr : Word) :
    (st.setSp k w).backed addr = st.backed addr := by
  cases k <;> rfl

@[simp] theorem State.setSp_peek (st : State) (k : Stack) (w addr : Word) :
    (st.setSp k w).peek addr = st.peek addr := by
  cases k <;> rfl

/-! ## Pushes -/

/-- All that an answered push of a byte can do (R254). -/
theorem pushByte_eq_next {k : Stack} {v : Byte} {st t : State} :
    pushByte k v st = .next t ↔
      st.mapped (st.sp k - 1#16) = true ∧
        t = (st.setSp k (st.sp k - 1#16)).store (st.sp k - 1#16) v := by
  simp [pushByte, writeByte_eq_next]

/-- All that an answered push of a 16-bit value can do: the low byte above the high byte (R254). -/
theorem pushWord_eq_next {k : Stack} {v : Word} {st t : State} :
    pushWord k v st = .next t ↔
      st.mapped (st.sp k - 1#16) = true ∧ st.mapped (st.sp k - 1#16 - 1#16) = true ∧
        t = ((st.store (st.sp k - 1#16) (lowByte v)).store (st.sp k - 1#16 - 1#16)
          (highByte v)).setSp k (st.sp k - 1#16 - 1#16) := by
  simp only [pushWord, andThen_eq_next, pushByte_eq_next]
  constructor
  · rintro ⟨u, ⟨h0, rfl⟩, h1, rfl⟩
    simp_all [State.store_setSp]
  · rintro ⟨h0, h1, rfl⟩
    exact ⟨_, ⟨h0, rfl⟩, by simpa using h1, by simp [State.store_setSp]⟩

/-- What pushing on the S stack may touch: S, memory with its canonical form kept, and where the stack
lies in a device that device and the count of draws. -/
def PushFrame (st t : State) : Prop :=
  t = { st with s := t.s, mem := t.mem, devices := t.devices, draws := t.draws } ∧
    (st.mem.wf = true → t.mem.wf = true)

theorem PushFrame.refl (st : State) : PushFrame st st := ⟨rfl, id⟩

theorem PushFrame.trans {st t w : State} (h : PushFrame st t) (h' : PushFrame t w) : PushFrame st w := by
  refine ⟨?_, fun hw => h'.2 (h.2 hw)⟩
  rw [h'.1, h.1]

theorem pushByte_frame {v : Byte} {st t : State} (h : pushByte .s v st = .next t) : PushFrame st t := by
  obtain ⟨-, rfl⟩ := pushByte_eq_next.mp h
  refine ⟨?_, fun hw => State.store_wf _ _ _ hw⟩
  rw [State.store_eq]
  rfl

theorem pushWord_frame {v : Word} {st t : State} (h : pushWord .s v st = .next t) : PushFrame st t := by
  obtain ⟨u, h0, h1⟩ := andThen_eq_next.mp h
  exact (pushByte_frame h0).trans (pushByte_frame h1)

/-- A conditional push may touch what the push may. -/
theorem opIf_pushFrame {c : Bool} {op : State → Result} {st t : State}
    (hop : ∀ {st t}, op st = .next t → PushFrame st t) (h : opIf c op st = .next t) :
    PushFrame st t := by
  rcases opIf_eq_next.mp h with ⟨-, h⟩ | ⟨-, rfl⟩
  · exact hop h
  · exact .refl _

/-- A sequence of pushes may touch what its parts may. -/
theorem andThen_pushFrame {o : Result} {op : State → Result} {st t : State}
    (ho : ∀ {u}, o = .next u → PushFrame st u) (hop : ∀ {u t}, op u = .next t → PushFrame u t)
    (h : andThen o op = .next t) : PushFrame st t := by
  obtain ⟨u, h0, h1⟩ := andThen_eq_next.mp h
  exact (ho h0).trans (hop h1)

/-- PSHS changes no more than a push may (R258). -/
theorem pushList_frame {list : Byte} {st t : State} (h : pushList list st = .next t) :
    PushFrame st t := by
  have byte : ∀ {c : Bool} {get : State → Byte} {st t : State},
      opIf c (fun st => pushByte .s (get st) st) st = .next t → PushFrame st t :=
    fun h => opIf_pushFrame pushByte_frame h
  have word : ∀ {c : Bool} {get : State → Word} {st t : State},
      opIf c (fun st => pushWord .s (get st) st) st = .next t → PushFrame st t :=
    fun h => opIf_pushFrame pushWord_frame h
  revert h
  refine andThen_pushFrame word fun {u _} => andThen_pushFrame word fun {u _} =>
    andThen_pushFrame word fun {u _} => andThen_pushFrame word fun {u _} =>
    andThen_pushFrame byte fun {u _} => andThen_pushFrame byte fun {u _} =>
    andThen_pushFrame byte fun {u _} => byte

/-- Stacking the entire state changes no more than a push may (R322, R327). -/
theorem stackAll_frame {st t : State} (h : stackAll st = .next t) : PushFrame st t := by
  revert h
  refine andThen_pushFrame pushWord_frame fun {u _} => andThen_pushFrame pushWord_frame fun {u _} =>
    andThen_pushFrame pushWord_frame fun {u _} => andThen_pushFrame pushWord_frame fun {u _} =>
    andThen_pushFrame pushByte_frame fun {u _} => andThen_pushFrame pushByte_frame fun {u _} =>
    andThen_pushFrame pushByte_frame fun {u _} => pushByte_frame

/-- Stacking PC and CC changes no more than a push may (R323, R327). -/
theorem stackFast_frame {st t : State} (h : stackFast st = .next t) : PushFrame st t :=
  andThen_pushFrame pushWord_frame pushByte_frame h

/-! ## Pulls -/

/-- A pull of a byte from RAM or ROM (R254). -/
theorem pullByte_backed {k : Stack} {st : State} (h : st.backed (st.sp k) = true) :
    pullByte k st = .next (st.peek (st.sp k), st.setSp k (st.sp k + 1#16)) := by
  simp [pullByte, readByte_backed h]

/-- A pull of a 16-bit value from RAM or ROM: the high byte lies lower (R254). -/
theorem pullWord_backed {k : Stack} {st : State} (h0 : st.backed (st.sp k) = true)
    (h1 : st.backed (st.sp k + 1#16) = true) :
    pullWord k st = .next (st.peekWord (st.sp k), st.setSp k (st.sp k + 1#16 + 1#16)) := by
  have h1' : (st.setSp k (st.sp k + 1#16)).backed ((st.setSp k (st.sp k + 1#16)).sp k) = true := by
    simpa using h1
  simp [pullWord, pullByte_backed h0, pullByte_backed h1', State.peekWord]

/-- What pulling may touch of the state before the register is written: the stack pointer, and
what a read may. -/
theorem pullByte_frame {k : Stack} {st t : State} {v : Byte} (h : pullByte k st = .next (v, t)) :
    t = { st.setSp k (st.sp k + 1#16) with devices := t.devices, draws := t.draws } := by
  obtain ⟨⟨v', u⟩, h0, h1⟩ := andThen_eq_next.mp h
  simp only [Host.Outcome.next.injEq, Prod.mk.injEq] at h1
  obtain ⟨-, rfl⟩ := h1
  have hu := readByte_frame h0
  rw [hu]
  cases k <;> rfl

theorem pullWord_frame {k : Stack} {st t : State} {v : Word} (h : pullWord k st = .next (v, t)) :
    t = { st.setSp k (st.sp k + 1#16 + 1#16) with devices := t.devices, draws := t.draws } := by
  obtain ⟨⟨v0, u0⟩, h0, h'⟩ := andThen_eq_next.mp h
  obtain ⟨⟨v1, u1⟩, h1, h2⟩ := andThen_eq_next.mp h'
  simp only [Host.Outcome.next.injEq, Prod.mk.injEq] at h2
  obtain ⟨-, rfl⟩ := h2
  have e0 := pullByte_frame h0
  have e1 := pullByte_frame h1
  dsimp only at e0 e1
  rw [e1, e0]
  cases k <;> rfl

/-- What no pull changes: memory, MemMap, the inputs to come, the hidden registers but the arming of
NMI, which is never undone. -/
def PullFrame (st t : State) : Prop :=
  t.mem = st.mem ∧ t.map = st.map ∧ t.env = st.env ∧ t.temp = st.temp ∧
    t.runState = st.runState ∧ t.nmiPending = st.nmiPending ∧
    (st.nmiArmed = true → t.nmiArmed = true)

theorem PullFrame.refl (st : State) : PullFrame st st := ⟨rfl, rfl, rfl, rfl, rfl, rfl, id⟩

theorem PullFrame.trans {st t w : State} (h : PullFrame st t) (h' : PullFrame t w) : PullFrame st w :=
  ⟨h'.1.trans h.1, h'.2.1.trans h.2.1, h'.2.2.1.trans h.2.2.1, h'.2.2.2.1.trans h.2.2.2.1,
    h'.2.2.2.2.1.trans h.2.2.2.2.1, h'.2.2.2.2.2.1.trans h.2.2.2.2.2.1,
    fun ha => h'.2.2.2.2.2.2 (h.2.2.2.2.2.2 ha)⟩

theorem pullByteTo_frame {k : Stack} {put : State → Byte → State} {st t : State}
    (hput : ∀ st v, PullFrame st (put st v)) (h : pullByteTo k put st = .next t) : PullFrame st t := by
  obtain ⟨⟨v, u⟩, h0, h1⟩ := andThen_eq_next.mp h
  simp only [Host.Outcome.next.injEq] at h1
  subst h1
  have e := pullByte_frame h0
  refine PullFrame.trans (t := u) ?_ (hput u v)
  rw [e]
  cases k <;> exact ⟨rfl, rfl, rfl, rfl, rfl, rfl, id⟩

theorem pullWordTo_frame {k : Stack} {put : State → Word → State} {st t : State}
    (hput : ∀ st v, PullFrame st (put st v)) (h : pullWordTo k put st = .next t) : PullFrame st t := by
  obtain ⟨⟨v, u⟩, h0, h1⟩ := andThen_eq_next.mp h
  simp only [Host.Outcome.next.injEq] at h1
  subst h1
  have e := pullWord_frame h0
  refine PullFrame.trans (t := u) ?_ (hput u v)
  rw [e]
  cases k <;> exact ⟨rfl, rfl, rfl, rfl, rfl, rfl, id⟩

theorem opIf_pullFrame {c : Bool} {op : State → Result} {st t : State}
    (hop : ∀ {st t}, op st = .next t → PullFrame st t) (h : opIf c op st = .next t) :
    PullFrame st t := by
  rcases opIf_eq_next.mp h with ⟨-, h⟩ | ⟨-, rfl⟩
  · exact hop h
  · exact .refl _

theorem andThen_pullFrame {o : Result} {op : State → Result} {st t : State}
    (ho : ∀ {u}, o = .next u → PullFrame st u) (hop : ∀ {u t}, op u = .next t → PullFrame u t)
    (h : andThen o op = .next t) : PullFrame st t := by
  obtain ⟨u, h0, h1⟩ := andThen_eq_next.mp h
  exact (ho h0).trans (hop h1)

/-- A register update of the pulls keeps what pulls keep. -/
theorem pullFrame_plain (st t : State) (h : t.mem = st.mem ∧ t.map = st.map ∧ t.env = st.env ∧
    t.temp = st.temp ∧ t.runState = st.runState ∧ t.nmiPending = st.nmiPending)
    (ha : t.nmiArmed = st.nmiArmed ∨ t.nmiArmed = true) : PullFrame st t :=
  ⟨h.1, h.2.1, h.2.2.1, h.2.2.2.1, h.2.2.2.2.1, h.2.2.2.2.2, fun e => by
    rcases ha with ha | ha
    · rw [ha, e]
    · exact ha⟩

/-- PULU changes no memory, no input and no hidden register but the arming of NMI (R259). -/
theorem pullList_frame {list : Byte} {st t : State} (h : pullList list st = .next t) :
    PullFrame st t := by
  revert h
  refine andThen_pullFrame (opIf_pullFrame <| pullByteTo_frame ?_) fun {u _} =>
    andThen_pullFrame (opIf_pullFrame <| pullByteTo_frame ?_) fun {u _} =>
    andThen_pullFrame (opIf_pullFrame <| pullByteTo_frame ?_) fun {u _} =>
    andThen_pullFrame (opIf_pullFrame <| pullByteTo_frame ?_) fun {u _} =>
    andThen_pullFrame (opIf_pullFrame <| pullWordTo_frame ?_) fun {u _} =>
    andThen_pullFrame (opIf_pullFrame <| pullWordTo_frame ?_) fun {u _} =>
    andThen_pullFrame (opIf_pullFrame <| pullWordTo_frame ?_) fun {u _} =>
    opIf_pullFrame <| pullWordTo_frame ?_
  case refine_7 => exact fun st v => pullFrame_plain _ _ ⟨rfl, rfl, rfl, rfl, rfl, rfl⟩ (.inr rfl)
  all_goals exact fun st v => pullFrame_plain _ _ ⟨rfl, rfl, rfl, rfl, rfl, rfl⟩ (.inl rfl)

/-- RTI changes no memory, no input and no hidden register (R294). -/
theorem returnFromException_frame {st t : State} (h : returnFromException st = .next t) :
    PullFrame st t := by
  revert h
  refine andThen_pullFrame (pullByteTo_frame ?_) fun {u _} =>
    andThen_pullFrame (opIf_pullFrame fun {w _} =>
      andThen_pullFrame (pullByteTo_frame ?_) fun {_ _} =>
      andThen_pullFrame (pullByteTo_frame ?_) fun {_ _} =>
      andThen_pullFrame (pullByteTo_frame ?_) fun {_ _} =>
      andThen_pullFrame (pullWordTo_frame ?_) fun {_ _} =>
      andThen_pullFrame (pullWordTo_frame ?_) fun {_ _} => pullWordTo_frame ?_) fun {_ _} =>
    pullWordTo_frame ?_
  all_goals exact fun st v => pullFrame_plain _ _ ⟨rfl, rfl, rfl, rfl, rfl, rfl⟩ (.inl rfl)

/-! ## Entries and RESET -/

/-- Going to a vector in RAM or ROM (R314). -/
theorem jumpToVector_backed {v : Word} {st : State} (h0 : st.backed v = true)
    (h1 : st.backed (v + 1#16) = true) :
    jumpToVector v st = .next { st with pc := st.peekWord v } := by
  simp [jumpToVector, readWord_backed h0 h1]

/-- Going to a vector changes PC and what a read may (R314). -/
theorem jumpToVector_frame {v : Word} {st t : State} (h : jumpToVector v st = .next t) :
    t = { st with pc := t.pc, devices := t.devices, draws := t.draws } := by
  obtain ⟨⟨w, u⟩, h0, h1⟩ := andThen_eq_next.mp h
  simp only [Host.Outcome.next.injEq] at h1
  have e := readWord_frame h0
  subst h1
  rw [e]

/-- All that an answered entry can change: S, CC, PC, memory, the NMI latch, a device and the count
of draws (R327). -/
theorem enterException_frame {ev : Event} {st t : State} (h : enterException ev st = .next t) :
    t = { st with s := t.s, cc := t.cc, pc := t.pc, mem := t.mem, devices := t.devices,
                  draws := t.draws, nmiPending := t.nmiPending } ∧
      (st.mem.wf = true → t.mem.wf = true) := by
  obtain ⟨u, h0, h1⟩ := andThen_eq_next.mp h
  have hp : PushFrame ((st.acknowledge ev).setFlag .e ev.entire) u := by
    split at h0
    · exact stackAll_frame h0
    · exact stackFast_frame h0
  have hj := jumpToVector_frame h1
  have hm : t.mem = u.mem := by rw [hj]; simp
  refine ⟨?_, fun hw => by rw [hm]; exact hp.2 (by simpa using hw)⟩
  rw [hj, hp.1]
  cases ev <;> rfl

/-- What RESET sets whatever the vector holds (R351). -/
theorem resetMachine_frame {st t : State} (h : resetMachine st = .next t) :
    t.dp = 0x00#8 ∧ getFlag t.cc .f = true ∧ getFlag t.cc .i = true ∧ t.nmiArmed = false ∧
      t.nmiPending = false ∧ t.runState = .running ∧ t.mem = st.mem ∧ t.map = st.map ∧
      t.env = st.env := by
  have e := jumpToVector_frame h
  rw [e]
  simp [getFlag_putFlag]

/-! ## Fetch -/

/-- Fetching a byte of RAM or ROM (R57). -/
theorem fetchByte_backed {st : State} (h : st.backed st.pc = true) :
    fetchByte st = .next (st.peek st.pc, { st with pc := st.pc + 1#16 }) := by
  simp [fetchByte, readByte_backed h]

/-- Fetching a byte changes PC and what a read may (R57). -/
theorem fetchByte_frame {st t : State} {v : Byte} (h : fetchByte st = .next (v, t)) :
    t = { st with pc := st.pc + 1#16, devices := t.devices, draws := t.draws } := by
  obtain ⟨⟨w, u⟩, h0, h1⟩ := andThen_eq_next.mp h
  simp only [Host.Outcome.next.injEq, Prod.mk.injEq] at h1
  obtain ⟨-, rfl⟩ := h1
  have e := readByte_frame h0
  rw [e]

/-- Fetching an instruction changes PC and what a read may (R57, R82). -/
theorem fetchFrom_frame {n : Nat} {bytes : List Byte} {st t : State} {i : Instr}
    (h : fetchFrom n bytes st = .next (i, t)) :
    t = { st with pc := t.pc, devices := t.devices, draws := t.draws } := by
  induction n generalizing bytes st with
  | zero => simp [fetchFrom] at h
  | succ n ih =>
    obtain ⟨⟨v, u⟩, h0, h1⟩ := andThen_eq_next.mp h
    have e := fetchByte_frame h0
    dsimp only at h1
    split at h1
    · simp only [Host.Outcome.next.injEq, Prod.mk.injEq] at h1
      rw [← h1.2, e]
    · rw [ih h1, e]
    all_goals simp at h1

/-- Fetching an instruction changes PC and what a read may (R57, R82). -/
theorem fetchInstr_frame {st t : State} {i : Instr} (h : fetchInstr st = .next (i, t)) :
    t = { st with pc := t.pc, devices := t.devices, draws := t.draws } :=
  fetchFrom_frame h

end Sys2Proof.Machine
end

