-- ==== Sys2Proof/Laws/Operands.lean ====
section
/-! SUPPORT. What the operand forms and the data operations at the effective address can do
(spec/41_indexed_addressing.md R151, R176, R181, R183; spec/42_load_store_lea.md R200 to R211). -/

namespace Sys2Proof.Machine

/-- What computing an effective address may touch: the holding register, a pointer register and
what a read may (a device, the count of draws). No flag, no memory (D27, R183). -/
def AddressFrame (st t : State) : Prop :=
  t = { st with temp := t.temp, x := t.x, y := t.y, u := t.u, s := t.s,
                devices := t.devices, draws := t.draws }

theorem eaOffset_frame (r : PtrReg) (off : Word) (st : State) : AddressFrame st (eaOffset r off st) := rfl

theorem eaPcRelative_frame (off : Word) (st : State) : AddressFrame st (eaPcRelative off st) := rfl

theorem eaExtended_frame (addr : Word) (st : State) : AddressFrame st (eaExtended addr st) := rfl

theorem eaIncrement_frame (r : PtrReg) (n : Word) (st : State) :
    AddressFrame st (eaIncrement r n st) := by
  cases r <;> rfl

theorem eaDecrement_frame (r : PtrReg) (n : Word) (st : State) :
    AddressFrame st (eaDecrement r n st) := by
  cases r <;> rfl

/-- A pointer in RAM or ROM (R176). -/
theorem eaIndirect_backed {st : State} (h0 : st.backed st.temp = true)
    (h1 : st.backed (st.temp + 1#16) = true) :
    eaIndirect st = .next (st.hold (st.peekWord st.temp)) := by
  simp [eaIndirect, readWord_backed h0 h1]

theorem eaIndirect_frame {st t u : State} (hs : AddressFrame st u) (h : eaIndirect u = .next t) :
    AddressFrame st t := by
  obtain ⟨⟨w, u1⟩, h0, h1⟩ := andThen_eq_next.mp h
  simp only [Host.Outcome.next.injEq] at h1
  have e := readWord_frame h0
  subst h1
  unfold AddressFrame at *
  rw [e, hs]
  rfl

theorem addressFrame_next {st t u : State} (hs : AddressFrame st u)
    (h : (Host.Outcome.next u : Result) = .next t) : AddressFrame st t := by
  cases h
  exact hs

/-- All that an answered indexed address computation can change (R151, R183). -/
theorem eaIndexed_frame {ix : Indexed} {st t : State} (h : eaIndexed ix st = .next t) :
    AddressFrame st t := by
  cases ix with
  | off5 r n => exact addressFrame_next (eaOffset_frame r _ st) h
  | zero r => exact addressFrame_next (eaOffset_frame r _ st) h
  | zeroInd r => exact eaIndirect_frame (eaOffset_frame r _ st) h
  | accB r => exact addressFrame_next (eaOffset_frame r _ st) h
  | accBInd r => exact eaIndirect_frame (eaOffset_frame r _ st) h
  | accA r => exact addressFrame_next (eaOffset_frame r _ st) h
  | accAInd r => exact eaIndirect_frame (eaOffset_frame r _ st) h
  | off8 r n => exact addressFrame_next (eaOffset_frame r _ st) h
  | off8Ind r n => exact eaIndirect_frame (eaOffset_frame r _ st) h
  | off16 r n => exact addressFrame_next (eaOffset_frame r _ st) h
  | off16Ind r n => exact eaIndirect_frame (eaOffset_frame r _ st) h
  | accD r => exact addressFrame_next (eaOffset_frame r _ st) h
  | accDInd r => exact eaIndirect_frame (eaOffset_frame r _ st) h
  | inc1 r => exact addressFrame_next (eaIncrement_frame r _ st) h
  | inc2 r => exact addressFrame_next (eaIncrement_frame r _ st) h
  | inc2Ind r => exact eaIndirect_frame (eaIncrement_frame r _ st) h
  | dec1 r => exact addressFrame_next (eaDecrement_frame r _ st) h
  | dec2 r => exact addressFrame_next (eaDecrement_frame r _ st) h
  | dec2Ind r => exact eaIndirect_frame (eaDecrement_frame r _ st) h
  | pcr8 n => exact addressFrame_next (eaPcRelative_frame _ st) h
  | pcr8Ind n => exact eaIndirect_frame (eaPcRelative_frame _ st) h
  | pcr16 n => exact addressFrame_next (eaPcRelative_frame _ st) h
  | pcr16Ind n => exact eaIndirect_frame (eaPcRelative_frame _ st) h
  | extInd n => exact eaIndirect_frame (eaExtended_frame n st) h

/-- A byte load from RAM or ROM. -/
theorem loadByteAt_backed {put : State → Byte → State} {st : State} (h : st.backed st.temp = true) :
    loadByteAt put st = .next (put st (st.peek st.temp)) := by
  simp [loadByteAt, readByte_backed h]

/-- A 16-bit load from RAM or ROM. -/
theorem loadWordAt_backed {put : State → Word → State} {st : State} (h0 : st.backed st.temp = true)
    (h1 : st.backed (st.temp + 1#16) = true) :
    loadWordAt put st = .next (put st (st.peekWord st.temp)) := by
  simp [loadWordAt, readWord_backed h0 h1]

/-- All that an answered 16-bit store can do (R207 to R209, R211). -/
theorem storeWordAt_eq_next {get : State → Word} {st t : State} :
    storeWordAt get st = .next t ↔
      st.mapped st.temp = true ∧ st.mapped (st.temp + 1#16) = true ∧
        t = { (st.store st.temp (highByte (get st))).store (st.temp + 1#16) (lowByte (get st)) with
              cc := moveFlags16 (get st) st.cc } := by
  simp only [storeWordAt, andThen_eq_next, writeWord_eq_next, Host.Outcome.next.injEq]
  constructor
  · rintro ⟨u, ⟨h0, h1, rfl⟩, rfl⟩
    exact ⟨h0, h1, by simp⟩
  · rintro ⟨h0, h1, rfl⟩
    exact ⟨_, ⟨h0, h1, rfl⟩, by simp⟩

end Sys2Proof.Machine
end

