-- ==== Sys2Proof/Laws/PerInstr.lean ====
section
/-! SUPPORT. Statements about every instruction, one lemma per constructor: the length of the encoding
(spec/30_encoding.md R80, R91). -/

namespace Sys2Proof.Laws

/-- An indexed operand takes the postbyte and Table 2's extra bytes (R91). -/
theorem encodeIndexed_length (ix : Indexed) : (encodeIndexed ix).length = 1 + ix.extraBytes := by
  cases ix <;> rfl

/-- No form takes more than two extra bytes (R91). -/
theorem extraBytes_le (ix : Indexed) : ix.extraBytes ≤ 2 := by
  cases ix <;> simp [Indexed.extraBytes]

end Sys2Proof.Laws

namespace Sys2Proof.Laws.EncodedLength

/-- An instruction takes 1 to 5 bytes (R80). -/
def Statement (i : Instr) : Prop := 1 ≤ (encode i).length ∧ (encode i).length ≤ maxInstrBytes

/-- An indexed operand after a one- or two-byte opcode stays within five bytes. -/
theorem indexed_bound (head : List Byte) (ix : Indexed) (h : head.length ≤ 2) :
    1 ≤ (head ++ encodeIndexed ix).length ∧ (head ++ encodeIndexed ix).length ≤ maxInstrBytes := by
  rw [List.length_append, encodeIndexed_length]
  have := extraBytes_le ix
  simp only [maxInstrBytes]
  omega

theorem nop : Statement .nop := ⟨by decide, by decide⟩
theorem sync : Statement .sync := ⟨by decide, by decide⟩
theorem daa : Statement .daa := ⟨by decide, by decide⟩
theorem abx : Statement .abx := ⟨by decide, by decide⟩
theorem rti : Statement .rti := ⟨by decide, by decide⟩
theorem swi : Statement .swi := ⟨by decide, by decide⟩
theorem swi2 : Statement .swi2 := ⟨by decide, by decide⟩
theorem swi3 : Statement .swi3 := ⟨by decide, by decide⟩
theorem asra : Statement .asra := ⟨by decide, by decide⟩
theorem clrb : Statement .clrb := ⟨by decide, by decide⟩
theorem cwai (imm : Byte) : Statement (.cwai imm) := ⟨Nat.le_add_left _ _, by simp [encode, maxInstrBytes]⟩
theorem aslDir (lo : Byte) : Statement (.aslDir lo) := ⟨Nat.le_add_left _ _, by simp [encode, maxInstrBytes]⟩
theorem aslIdx (ix : Indexed) : Statement (.aslIdx ix) := indexed_bound _ ix (by decide)
theorem aslExt (addr : Word) : Statement (.aslExt addr) := ⟨Nat.le_add_left _ _, by simp [encode, wordBytes, maxInstrBytes]⟩
theorem ldaImm (v : Byte) : Statement (.ldaImm v) := ⟨Nat.le_add_left _ _, by simp [encode, maxInstrBytes]⟩
theorem ldaDir (lo : Byte) : Statement (.ldaDir lo) := ⟨Nat.le_add_left _ _, by simp [encode, maxInstrBytes]⟩
theorem ldaIdx (ix : Indexed) : Statement (.ldaIdx ix) := indexed_bound _ ix (by decide)
theorem ldaExt (addr : Word) : Statement (.ldaExt addr) := ⟨Nat.le_add_left _ _, by simp [encode, wordBytes, maxInstrBytes]⟩
theorem ldbImm (v : Byte) : Statement (.ldbImm v) := ⟨Nat.le_add_left _ _, by simp [encode, maxInstrBytes]⟩
theorem ldbDir (lo : Byte) : Statement (.ldbDir lo) := ⟨Nat.le_add_left _ _, by simp [encode, maxInstrBytes]⟩
theorem ldbIdx (ix : Indexed) : Statement (.ldbIdx ix) := indexed_bound _ ix (by decide)
theorem ldbExt (addr : Word) : Statement (.ldbExt addr) := ⟨Nat.le_add_left _ _, by simp [encode, wordBytes, maxInstrBytes]⟩
theorem lddImm (v : Word) : Statement (.lddImm v) := ⟨Nat.le_add_left _ _, by simp [encode, wordBytes, maxInstrBytes]⟩
theorem lddDir (lo : Byte) : Statement (.lddDir lo) := ⟨Nat.le_add_left _ _, by simp [encode, maxInstrBytes]⟩
theorem lddIdx (ix : Indexed) : Statement (.lddIdx ix) := indexed_bound _ ix (by decide)
theorem lddExt (addr : Word) : Statement (.lddExt addr) := ⟨Nat.le_add_left _ _, by simp [encode, wordBytes, maxInstrBytes]⟩
theorem ldxImm (v : Word) : Statement (.ldxImm v) := ⟨Nat.le_add_left _ _, by simp [encode, wordBytes, maxInstrBytes]⟩
theorem ldxDir (lo : Byte) : Statement (.ldxDir lo) := ⟨Nat.le_add_left _ _, by simp [encode, maxInstrBytes]⟩
theorem ldxIdx (ix : Indexed) : Statement (.ldxIdx ix) := indexed_bound _ ix (by decide)
theorem ldxExt (addr : Word) : Statement (.ldxExt addr) := ⟨Nat.le_add_left _ _, by simp [encode, wordBytes, maxInstrBytes]⟩
theorem ldyImm (v : Word) : Statement (.ldyImm v) := ⟨Nat.le_add_left _ _, by simp [encode, wordBytes, maxInstrBytes]⟩
theorem ldyDir (lo : Byte) : Statement (.ldyDir lo) := ⟨Nat.le_add_left _ _, by simp [encode, maxInstrBytes]⟩
theorem ldyIdx (ix : Indexed) : Statement (.ldyIdx ix) := indexed_bound _ ix (by decide)
theorem ldyExt (addr : Word) : Statement (.ldyExt addr) := ⟨Nat.le_add_left _ _, by simp [encode, wordBytes, maxInstrBytes]⟩
theorem lduImm (v : Word) : Statement (.lduImm v) := ⟨Nat.le_add_left _ _, by simp [encode, wordBytes, maxInstrBytes]⟩
theorem lduDir (lo : Byte) : Statement (.lduDir lo) := ⟨Nat.le_add_left _ _, by simp [encode, maxInstrBytes]⟩
theorem lduIdx (ix : Indexed) : Statement (.lduIdx ix) := indexed_bound _ ix (by decide)
theorem lduExt (addr : Word) : Statement (.lduExt addr) := ⟨Nat.le_add_left _ _, by simp [encode, wordBytes, maxInstrBytes]⟩
theorem stdDir (lo : Byte) : Statement (.stdDir lo) := ⟨Nat.le_add_left _ _, by simp [encode, maxInstrBytes]⟩
theorem stdIdx (ix : Indexed) : Statement (.stdIdx ix) := indexed_bound _ ix (by decide)
theorem stdExt (addr : Word) : Statement (.stdExt addr) := ⟨Nat.le_add_left _ _, by simp [encode, wordBytes, maxInstrBytes]⟩
theorem stxDir (lo : Byte) : Statement (.stxDir lo) := ⟨Nat.le_add_left _ _, by simp [encode, maxInstrBytes]⟩
theorem stxIdx (ix : Indexed) : Statement (.stxIdx ix) := indexed_bound _ ix (by decide)
theorem stxExt (addr : Word) : Statement (.stxExt addr) := ⟨Nat.le_add_left _ _, by simp [encode, wordBytes, maxInstrBytes]⟩
theorem stuDir (lo : Byte) : Statement (.stuDir lo) := ⟨Nat.le_add_left _ _, by simp [encode, maxInstrBytes]⟩
theorem stuIdx (ix : Indexed) : Statement (.stuIdx ix) := indexed_bound _ ix (by decide)
theorem stuExt (addr : Word) : Statement (.stuExt addr) := ⟨Nat.le_add_left _ _, by simp [encode, wordBytes, maxInstrBytes]⟩
theorem leax (ix : Indexed) : Statement (.leax ix) := indexed_bound _ ix (by decide)
theorem exg (r1 : Reg) (r2 : Reg) : Statement (.exg r1 r2) := ⟨Nat.le_add_left _ _, by simp [encode, maxInstrBytes]⟩
theorem tfr (r1 : Reg) (r2 : Reg) : Statement (.tfr r1 r2) := ⟨Nat.le_add_left _ _, by simp [encode, maxInstrBytes]⟩
theorem pshs (list : Byte) : Statement (.pshs list) := ⟨Nat.le_add_left _ _, by simp [encode, maxInstrBytes]⟩
theorem pulu (list : Byte) : Statement (.pulu list) := ⟨Nat.le_add_left _ _, by simp [encode, maxInstrBytes]⟩
theorem beq (off : Byte) : Statement (.beq off) := ⟨Nat.le_add_left _ _, by simp [encode, maxInstrBytes]⟩
theorem bgt (off : Byte) : Statement (.bgt off) := ⟨Nat.le_add_left _ _, by simp [encode, maxInstrBytes]⟩
theorem lbeq (off : Word) : Statement (.lbeq off) := ⟨Nat.le_add_left _ _, by simp [encode, wordBytes, maxInstrBytes]⟩
theorem lbgt (off : Word) : Statement (.lbgt off) := ⟨Nat.le_add_left _ _, by simp [encode, wordBytes, maxInstrBytes]⟩
theorem pbOff5 (r : PtrReg) (n : BitVec 5) : Statement (.pbOff5 r n) := indexed_bound [] (.off5 r n) (by decide)
theorem pbInc1 (r : PtrReg) : Statement (.pbInc1 r) := indexed_bound [] (.inc1 r) (by decide)
theorem pbInc2 (r : PtrReg) : Statement (.pbInc2 r) := indexed_bound [] (.inc2 r) (by decide)
theorem pbInc2Ind (r : PtrReg) : Statement (.pbInc2Ind r) := indexed_bound [] (.inc2Ind r) (by decide)
theorem pbDec1 (r : PtrReg) : Statement (.pbDec1 r) := indexed_bound [] (.dec1 r) (by decide)
theorem pbDec2 (r : PtrReg) : Statement (.pbDec2 r) := indexed_bound [] (.dec2 r) (by decide)
theorem pbDec2Ind (r : PtrReg) : Statement (.pbDec2Ind r) := indexed_bound [] (.dec2Ind r) (by decide)
theorem pbZero (r : PtrReg) : Statement (.pbZero r) := indexed_bound [] (.zero r) (by decide)
theorem pbZeroInd (r : PtrReg) : Statement (.pbZeroInd r) := indexed_bound [] (.zeroInd r) (by decide)
theorem pbAccB (r : PtrReg) : Statement (.pbAccB r) := indexed_bound [] (.accB r) (by decide)
theorem pbAccBInd (r : PtrReg) : Statement (.pbAccBInd r) := indexed_bound [] (.accBInd r) (by decide)
theorem pbAccA (r : PtrReg) : Statement (.pbAccA r) := indexed_bound [] (.accA r) (by decide)
theorem pbAccAInd (r : PtrReg) : Statement (.pbAccAInd r) := indexed_bound [] (.accAInd r) (by decide)
theorem pbOff8 (r : PtrReg) (n : Byte) : Statement (.pbOff8 r n) := indexed_bound [] (.off8 r n) (by decide)
theorem pbOff8Ind (r : PtrReg) (n : Byte) : Statement (.pbOff8Ind r n) := indexed_bound [] (.off8Ind r n) (by decide)
theorem pbOff16 (r : PtrReg) (n : Word) : Statement (.pbOff16 r n) := indexed_bound [] (.off16 r n) (by decide)
theorem pbOff16Ind (r : PtrReg) (n : Word) : Statement (.pbOff16Ind r n) := indexed_bound [] (.off16Ind r n) (by decide)
theorem pbAccD (r : PtrReg) : Statement (.pbAccD r) := indexed_bound [] (.accD r) (by decide)
theorem pbAccDInd (r : PtrReg) : Statement (.pbAccDInd r) := indexed_bound [] (.accDInd r) (by decide)
theorem pbPcr8 (n : Byte) : Statement (.pbPcr8 n) := indexed_bound [] (.pcr8 n) (by decide)
theorem pbPcr8Ind (n : Byte) : Statement (.pbPcr8Ind n) := indexed_bound [] (.pcr8Ind n) (by decide)
theorem pbPcr16 (n : Word) : Statement (.pbPcr16 n) := indexed_bound [] (.pcr16 n) (by decide)
theorem pbPcr16Ind (n : Word) : Statement (.pbPcr16Ind n) := indexed_bound [] (.pcr16Ind n) (by decide)
theorem pbExtInd (n : Word) : Statement (.pbExtInd n) := indexed_bound [] (.extInd n) (by decide)

end Sys2Proof.Laws.EncodedLength
end

