-- ==== Sys2Proof/Machine/Assembler.lean ====
section
/-! DEFINITION. The assembler's part, as far as the spec states it: which form an operand assembles to and
the notation (spec/30_encoding.md R104, R105; spec/41_indexed_addressing.md R174). No step uses it
(log 25). -/

namespace Sys2Proof.Assembler

/-! ## The choice of a form -/

/-- `n,R`: no offset for 0, else the shortest of the 5-, 8- and 16-bit offsets that holds `n` (R92, R105). -/
def constantOffset (r : PtrReg) (n : Word) : Indexed :=
  if n = 0#16 then .zero r
  else if sext5 (n.extractLsb' 0 5) = n then .off5 r (n.extractLsb' 0 5)
  else if sext8 (lowByte n) = n then .off8 r (lowByte n)
  else .off16 r n

/-- `[n,R]`: there is no 5-bit form, a small offset takes the 8-bit one (R87). -/
def constantOffsetIndirect (r : PtrReg) (n : Word) : Indexed :=
  if sext8 (lowByte n) = n then .off8Ind r (lowByte n) else .off16Ind r n

/-- `addr,PCR` in an instruction at `start` whose opcode and postbyte take `len` bytes: the distance
from the next instruction, in 8 bits where it fits, else in 16 (R174). -/
def pcRelative (start len addr : Word) : Indexed :=
  if sext8 (lowByte (addr - (start + len + 1#16))) = addr - (start + len + 1#16) then
    .pcr8 (lowByte (addr - (start + len + 1#16)))
  else .pcr16 (addr - (start + len + 2#16))

/-- `[addr,PCR]`, as `pcRelative`. -/
def pcRelativeIndirect (start len addr : Word) : Indexed :=
  if sext8 (lowByte (addr - (start + len + 1#16))) = addr - (start + len + 1#16) then
    .pcr8Ind (lowByte (addr - (start + len + 1#16)))
  else .pcr16Ind (addr - (start + len + 2#16))

/-- The offset byte of a short branch at `start` to `target`, where it reaches (R129, R130). -/
def shortBranch (start target : Word) : Option Byte :=
  if sext8 (lowByte (target - (start + 2#16))) = target - (start + 2#16) then
    some (lowByte (target - (start + 2#16)))
  else none

/-- The offset of a long branch at `start` to `target`; it reaches all of memory (R129). -/
def longBranch (start target : Word) : Word := target - (start + 4#16)

/-! ## The notation (R104) -/

/-- `$` and hexadecimal digits. -/
def hex {w : Nat} (v : BitVec w) : String := "$" ++ v.toHex

/-- A signed decimal offset. -/
def signed {w : Nat} (v : BitVec w) : String := toString v.toInt

/-- The name of a pointer register. -/
def ptrText : PtrReg → String
  | .x => "X"
  | .y => "Y"
  | .u => "U"
  | .s => "S"

/-- The name of a register of TFR and EXG. -/
def regText : Reg → String
  | .d => "D"
  | .x => "X"
  | .y => "Y"
  | .u => "U"
  | .s => "S"
  | .pc => "PC"
  | .a => "A"
  | .b => "B"
  | .cc => "CC"
  | .dp => "DP"

/-- An indexed operand; `next` is the next instruction's address, from which a PC-relative target is
counted (R104, R174). -/
def indexedText (next : Word) : Indexed → String
  | .off5 r n => signed n ++ "," ++ ptrText r
  | .inc1 r => "," ++ ptrText r ++ "+"
  | .inc2 r => "," ++ ptrText r ++ "++"
  | .inc2Ind r => "[," ++ ptrText r ++ "++]"
  | .dec1 r => ",-" ++ ptrText r
  | .dec2 r => ",--" ++ ptrText r
  | .dec2Ind r => "[,--" ++ ptrText r ++ "]"
  | .zero r => "," ++ ptrText r
  | .zeroInd r => "[," ++ ptrText r ++ "]"
  | .accB r => "B," ++ ptrText r
  | .accBInd r => "[B," ++ ptrText r ++ "]"
  | .accA r => "A," ++ ptrText r
  | .accAInd r => "[A," ++ ptrText r ++ "]"
  | .off8 r n => signed n ++ "," ++ ptrText r
  | .off8Ind r n => "[" ++ signed n ++ "," ++ ptrText r ++ "]"
  | .off16 r n => signed n ++ "," ++ ptrText r
  | .off16Ind r n => "[" ++ signed n ++ "," ++ ptrText r ++ "]"
  | .accD r => "D," ++ ptrText r
  | .accDInd r => "[D," ++ ptrText r ++ "]"
  | .pcr8 n => hex (next + sext8 n) ++ ",PCR"
  | .pcr8Ind n => "[" ++ hex (next + sext8 n) ++ ",PCR]"
  | .pcr16 n => hex (next + n) ++ ",PCR"
  | .pcr16Ind n => "[" ++ hex (next + n) ++ ",PCR]"
  | .extInd n => "[" ++ hex n ++ "]"

/-- The names of a register list's members, `other` being the stack pointer bit 6 names (R96). -/
def listText (other : String) (list : Byte) : String :=
  let names := ["CC", "A", "B", "DP", "X", "Y", other, "PC"]
  ",".intercalate ((names.zipIdx.filter fun p => list.getLsbD p.2).map Prod.fst)

/-- An instruction in the source's notation; `next` is the address of the instruction after it, from
which branch and PC-relative targets are counted (R104). A bare postbyte row is shown as its operand. -/
def text (next : Word) : Instr → String
  | .nop => "NOP"
  | .sync => "SYNC"
  | .daa => "DAA"
  | .abx => "ABX"
  | .rti => "RTI"
  | .swi => "SWI"
  | .swi2 => "SWI2"
  | .swi3 => "SWI3"
  | .asra => "ASRA"
  | .clrb => "CLRB"
  | .cwai imm => "CWAI #" ++ hex imm
  | .aslDir lo => "ASL <" ++ hex lo
  | .aslIdx ix => "ASL " ++ indexedText next ix
  | .aslExt addr => "ASL " ++ hex addr
  | .ldaImm v => "LDA #" ++ hex v
  | .ldaDir lo => "LDA <" ++ hex lo
  | .ldaIdx ix => "LDA " ++ indexedText next ix
  | .ldaExt addr => "LDA " ++ hex addr
  | .ldbImm v => "LDB #" ++ hex v
  | .ldbDir lo => "LDB <" ++ hex lo
  | .ldbIdx ix => "LDB " ++ indexedText next ix
  | .ldbExt addr => "LDB " ++ hex addr
  | .lddImm v => "LDD #" ++ hex v
  | .lddDir lo => "LDD <" ++ hex lo
  | .lddIdx ix => "LDD " ++ indexedText next ix
  | .lddExt addr => "LDD " ++ hex addr
  | .ldxImm v => "LDX #" ++ hex v
  | .ldxDir lo => "LDX <" ++ hex lo
  | .ldxIdx ix => "LDX " ++ indexedText next ix
  | .ldxExt addr => "LDX " ++ hex addr
  | .ldyImm v => "LDY #" ++ hex v
  | .ldyDir lo => "LDY <" ++ hex lo
  | .ldyIdx ix => "LDY " ++ indexedText next ix
  | .ldyExt addr => "LDY " ++ hex addr
  | .lduImm v => "LDU #" ++ hex v
  | .lduDir lo => "LDU <" ++ hex lo
  | .lduIdx ix => "LDU " ++ indexedText next ix
  | .lduExt addr => "LDU " ++ hex addr
  | .stdDir lo => "STD <" ++ hex lo
  | .stdIdx ix => "STD " ++ indexedText next ix
  | .stdExt addr => "STD " ++ hex addr
  | .stxDir lo => "STX <" ++ hex lo
  | .stxIdx ix => "STX " ++ indexedText next ix
  | .stxExt addr => "STX " ++ hex addr
  | .stuDir lo => "STU <" ++ hex lo
  | .stuIdx ix => "STU " ++ indexedText next ix
  | .stuExt addr => "STU " ++ hex addr
  | .leax ix => "LEAX " ++ indexedText next ix
  | .exg r1 r2 => "EXG " ++ regText r1 ++ "," ++ regText r2
  | .tfr r1 r2 => "TFR " ++ regText r1 ++ "," ++ regText r2
  | .pshs list => "PSHS " ++ listText "U" list
  | .pulu list => "PULU " ++ listText "S" list
  | .beq off => "BEQ " ++ hex (next + sext8 off)
  | .bgt off => "BGT " ++ hex (next + sext8 off)
  | .lbeq off => "LBEQ " ++ hex (next + off)
  | .lbgt off => "LBGT " ++ hex (next + off)
  | .pbOff5 r n => indexedText next (.off5 r n)
  | .pbInc1 r => indexedText next (.inc1 r)
  | .pbInc2 r => indexedText next (.inc2 r)
  | .pbInc2Ind r => indexedText next (.inc2Ind r)
  | .pbDec1 r => indexedText next (.dec1 r)
  | .pbDec2 r => indexedText next (.dec2 r)
  | .pbDec2Ind r => indexedText next (.dec2Ind r)
  | .pbZero r => indexedText next (.zero r)
  | .pbZeroInd r => indexedText next (.zeroInd r)
  | .pbAccB r => indexedText next (.accB r)
  | .pbAccBInd r => indexedText next (.accBInd r)
  | .pbAccA r => indexedText next (.accA r)
  | .pbAccAInd r => indexedText next (.accAInd r)
  | .pbOff8 r n => indexedText next (.off8 r n)
  | .pbOff8Ind r n => indexedText next (.off8Ind r n)
  | .pbOff16 r n => indexedText next (.off16 r n)
  | .pbOff16Ind r n => indexedText next (.off16Ind r n)
  | .pbAccD r => indexedText next (.accD r)
  | .pbAccDInd r => indexedText next (.accDInd r)
  | .pbPcr8 n => indexedText next (.pcr8 n)
  | .pbPcr8Ind n => indexedText next (.pcr8Ind n)
  | .pbPcr16 n => indexedText next (.pcr16 n)
  | .pbPcr16Ind n => indexedText next (.pcr16Ind n)
  | .pbExtInd n => indexedText next (.extInd n)

end Sys2Proof.Assembler
end

