-- ==== Sys2Proof/Safety.lean ====
section
/-! DEFINITION. What counts as a safe run, in the terms statements use (spec/00_scope.md R7, `EndOfRun`;
spec/60_exceptions.md R317 to R321). -/

namespace Sys2Proof.Machine

/-- What every step keeps: memory is in canonical form, an NMI is latched only while NMI is armed (R317),
and an MPU waiting after CWAI has E = 1 (R295). -/
structure State.Inv (st : State) : Prop where
  memory : st.mem.wf = true
  latch : st.nmiPending = true → st.nmiArmed = true
  waiting : st.runState = .cwaiWait → st.flag .e = true

/-- The next step executes an instruction: running, no RESET, and nothing recognised (R321). -/
def State.quiet (st : State) : Bool :=
  st.runState == .running && !st.input.reset &&
    ((st.dropInput.latchNmi st.input).recognised st.input).isNone

/-- The state an instruction is fetched in when the next step executes one (R321). -/
def State.atFetch (st : State) : State := st.dropInput.latchNmi st.input

/-- Two states that differ at most in the holding register (R20, R32; log 12). -/
def State.agreeButTemp (st st' : State) : Prop := { st with temp := st'.temp } = st'

/-- Two results that are the same, but for the holding register of a next state. -/
def agreeButTempResult (o o' : Host.Outcome State Fault Refusal) : Prop :=
  match o, o' with
  | .next st, .next st' => st.agreeButTemp st'
  | .fault r, .fault r' => r = r'
  | .refused r, .refused r' => r = r'
  | _, _ => False

/-- The parameter `EndOfRun`: the condition at which a claim looks at the state (R7, D23; log 24). -/
abbrev EndOfRun := State → Bool

/-- Some number of steps from `st` reaches a state where the run ends. -/
def ReachesEnd (stop : EndOfRun) (st : State) : Prop :=
  ∃ k st', Sys2Proof.core.run k st = .next st' ∧ stop st' = true

/-- No number of steps from `st` ends in a fault or a refusal. -/
def SafeRun (st : State) : Prop := ∀ k, ∃ st', Sys2Proof.core.run k st = .next st'

end Sys2Proof.Machine
end

