-- ==== Sys2Proof/Certificates/Slice0/Obligations.lean ====
section
/-! DEFINITION. The statements for the provers, and the words they are stated in. Each docstring names the
rules of spec/ it rests on. -/

namespace Sys2Proof.Statements

open Sys2Proof.Machine

/-! ## Words about memory -/

/-- The `n` addresses from `addr` on, modulo 2^16, are RAM. -/
abbrev RamFrom (st : State) (addr : Word) (n : Nat) : Prop :=
  ∀ k, k < n → st.kindAt (addr + BitVec.ofNat 16 k) = .ram

/-- The `n` addresses from `addr` on are RAM or ROM: a read has no side effect. -/
abbrev BackedFrom (st : State) (addr : Word) (n : Nat) : Prop :=
  ∀ k, k < n → st.backed (addr + BitVec.ofNat 16 k) = true

/-- The `n` addresses from `addr` on answer an access. -/
abbrev MappedFrom (st : State) (addr : Word) (n : Nat) : Prop :=
  ∀ k, k < n → st.mapped (addr + BitVec.ofNat 16 k) = true

/-- `a` is none of the `n` addresses from `addr` on. -/
abbrev Outside (a addr : Word) (n : Nat) : Prop := ∀ k, k < n → a ≠ addr + BitVec.ofNat 16 k

/-- Every byte outside the `n` addresses from `addr` on reads as before. -/
def SameMemoryOutside (st t : State) (addr : Word) (n : Nat) : Prop :=
  ∀ a, Outside a addr n → t.peek a = st.peek a

/-- If none of the `n` addresses from `addr` on is a device's, no device has changed and nothing has been
drawn. -/
def SameDevicesUnlessIn (st t : State) (addr : Word) (n : Nat) : Prop :=
  (∀ k, k < n → ∀ d, st.kindAt (addr + BitVec.ofNat 16 k) ≠ .device d) →
    t.devices = st.devices ∧ t.draws = st.draws

/-- Of the `n` addresses from `addr` up, the one `k` above `addr` is the first that does not answer. -/
abbrev UnmappedGoingUp (st : State) (addr : Word) (n k : Nat) : Prop :=
  k < n ∧ (∀ j, j < k → st.mapped (addr + BitVec.ofNat 16 j) = true) ∧
    st.mapped (addr + BitVec.ofNat 16 k) = false

/-- Of the `n` addresses from `addr` down, the one `k` below `addr` is the first that does not answer. -/
abbrev UnmappedGoingDown (st : State) (addr : Word) (n k : Nat) : Prop :=
  k < n ∧ (∀ j, j < k → st.mapped (addr - BitVec.ofNat 16 j) = true) ∧
    st.mapped (addr - BitVec.ofNat 16 k) = false

/-- Byte reads going up from `addr`, each in the state the one before left, answer these bytes and end in
`w`. -/
def AnsweredGoingUp (st : State) (addr : Word) : List Byte → State → Prop
  | [], w => w = st
  | v :: vs, w => ∃ u, readByte addr st = .next (v, u) ∧ AnsweredGoingUp u (addr + 1#16) vs w

/-- Byte writes going down from `addr`, each in the state the one before left, write these bytes and end
in `w`. -/
def WrittenGoingDown (st : State) (addr : Word) : List Byte → State → Prop
  | [], w => w = st
  | v :: vs, w => ∃ u, writeByte addr v st = .next u ∧ WrittenGoingDown u (addr - 1#16) vs w

/-- Byte `k` of what was answered. -/
abbrev byteOf (bytes : List Byte) (k : Nat) : Byte := bytes.getD k 0x00#8

/-- The 16-bit value at byte `k` of what was answered, high byte first. -/
abbrev wordOf (bytes : List Byte) (k : Nat) : Word := byteOf bytes k ++ byteOf bytes (k + 1)

/-! ## Words about flags -/

/-- The flags of a load or store of a value whose sign and zero test are `n` and `z`: V cleared, the
other five kept (R211). -/
def MoveFlags (n z : Bool) (old new : Byte) : Prop :=
  getFlag new .n = n ∧ getFlag new .z = z ∧ getFlag new .v = false ∧
    ∀ g, g = Flag.c ∨ g = Flag.h ∨ g = Flag.i ∨ g = Flag.f ∨ g = Flag.e →
      getFlag new g = getFlag old g

/-! ## Words about operands in memory -/

/-- The address an indexed form computes, before any indirection (R160 to R175). -/
def plainAddress (st : State) : Indexed → Word
  | .off5 r n => st.ptr r + n.signExtend 16
  | .inc1 r | .inc2 r | .inc2Ind r => st.ptr r
  | .dec1 r => st.ptr r - 1#16
  | .dec2 r | .dec2Ind r => st.ptr r - 2#16
  | .zero r | .zeroInd r => st.ptr r
  | .accB r | .accBInd r => st.ptr r + st.b.signExtend 16
  | .accA r | .accAInd r => st.ptr r + st.a.signExtend 16
  | .off8 r n | .off8Ind r n => st.ptr r + n.signExtend 16
  | .off16 r n | .off16Ind r n => st.ptr r + n
  | .accD r | .accDInd r => st.ptr r + (st.a ++ st.b)
  | .pcr8 n | .pcr8Ind n => st.pc + n.signExtend 16
  | .pcr16 n | .pcr16Ind n => st.pc + n
  | .extInd n => n

/-- The form has the level of indirection (R88, R176). -/
def isIndirect : Indexed → Bool
  | .inc2Ind _ | .dec2Ind _ | .zeroInd _ | .accBInd _ | .accAInd _ | .off8Ind _ _ | .off16Ind _ _
  | .accDInd _ | .pcr8Ind _ | .pcr16Ind _ | .extInd _ => true
  | .off5 _ _ | .inc1 _ | .inc2 _ | .dec1 _ | .dec2 _ | .zero _ | .accB _ | .accA _ | .off8 _ _
  | .off16 _ _ | .accD _ | .pcr8 _ | .pcr16 _ => false

/-- The form is one of the auto increment and decrement forms (R165, R167). -/
def isAuto : Indexed → Bool
  | .inc1 _ | .inc2 _ | .inc2Ind _ | .dec1 _ | .dec2 _ | .dec2Ind _ => true
  | .off5 _ _ | .zero _ | .zeroInd _ | .accB _ | .accBInd _ | .accA _ | .accAInd _ | .off8 _ _
  | .off8Ind _ _ | .off16 _ _ | .off16Ind _ _ | .accD _ | .accDInd _ | .pcr8 _ | .pcr8Ind _
  | .pcr16 _ | .pcr16Ind _ | .extInd _ => false

/-- The pointer register after the form: stepped by the four auto forms, else as it was (R165, R167,
R183). -/
def stepped (st : State) : Indexed → State
  | .inc1 r => st.setPtr r (st.ptr r + 1#16)
  | .inc2 r | .inc2Ind r => st.setPtr r (st.ptr r + 2#16)
  | .dec1 r => st.setPtr r (st.ptr r - 1#16)
  | .dec2 r | .dec2Ind r => st.setPtr r (st.ptr r - 2#16)
  | .off5 _ _ | .zero _ | .zeroInd _ | .accB _ | .accBInd _ | .accA _ | .accAInd _ | .off8 _ _
  | .off8Ind _ _ | .off16 _ _ | .off16Ind _ _ | .accD _ | .accDInd _ | .pcr8 _ | .pcr8Ind _
  | .pcr16 _ | .pcr16Ind _ | .extInd _ => st

/-- The effective address of an indexed form (R151, R176). -/
def indexedAddress (st : State) (ix : Indexed) : Word :=
  if isIndirect ix then st.peekWord (plainAddress st ix) else plainAddress st ix

/-- The pointer an indirect form reads lies in RAM or ROM. -/
abbrev PointerBacked (st : State) (ix : Indexed) : Prop :=
  isIndirect ix = true → BackedFrom st (plainAddress st ix) 2

/-- An operand in memory, by the three modes that name one (R124, R126, R151). -/
inductive MemOperand
  | direct (lo : Byte)
  | extended (addr : Word)
  | indexed (ix : Indexed)
  deriving DecidableEq, Repr

/-- The effective address of an operand. -/
def MemOperand.ea (st : State) : MemOperand → Word
  | .direct lo => st.dp ++ lo
  | .extended addr => addr
  | .indexed ix => indexedAddress st ix

/-- The pointer of an indirect form can be read without side effect; nothing is asked otherwise. -/
abbrev MemOperand.Ready (st : State) : MemOperand → Prop
  | .direct _ => True
  | .extended _ => True
  | .indexed ix => PointerBacked st ix

/-- The state after the addressing mode: the pointer register stepped, the address held (R181). -/
def MemOperand.after (st : State) (o : MemOperand) : State :=
  match o with
  | .direct lo => { st with temp := st.dp ++ lo }
  | .extended addr => { st with temp := addr }
  | .indexed ix => { stepped st ix with temp := indexedAddress st ix }

/-- The addressing mode of `o` is answered, whatever answers, and ends in `u`: the pointer of an indirect
form has been read, the pointer register of an auto form is stepped, the address is held (R176, R181). -/
def MemOperand.Reaches (st u : State) : MemOperand → Prop
  | .direct lo => u = { st with temp := st.dp ++ lo }
  | .extended addr => u = { st with temp := addr }
  | .indexed ix =>
    if isIndirect ix then
      ∃ ptr w, readWord (plainAddress st ix) st = .next (ptr, w) ∧ u = { stepped w ix with temp := ptr }
    else u = { stepped st ix with temp := plainAddress st ix }

/-- The pointer of an indirect form lies where something answers; nothing is asked otherwise. -/
abbrev MemOperand.PointerMapped (st : State) : MemOperand → Prop
  | .direct _ => True
  | .extended _ => True
  | .indexed ix => isIndirect ix = true → MappedFrom st (plainAddress st ix) 2

/-- LDA with an operand in memory: constructors ldaDir, ldaExt, ldaIdx. -/
def ldaOf : MemOperand → Instr
  | .direct lo => .ldaDir lo
  | .extended addr => .ldaExt addr
  | .indexed ix => .ldaIdx ix

/-- LDB with an operand in memory: constructors ldbDir, ldbExt, ldbIdx. -/
def ldbOf : MemOperand → Instr
  | .direct lo => .ldbDir lo
  | .extended addr => .ldbExt addr
  | .indexed ix => .ldbIdx ix

/-- LDD with an operand in memory: constructors lddDir, lddExt, lddIdx. -/
def lddOf : MemOperand → Instr
  | .direct lo => .lddDir lo
  | .extended addr => .lddExt addr
  | .indexed ix => .lddIdx ix

/-- LDX with an operand in memory: constructors ldxDir, ldxExt, ldxIdx. -/
def ldxOf : MemOperand → Instr
  | .direct lo => .ldxDir lo
  | .extended addr => .ldxExt addr
  | .indexed ix => .ldxIdx ix

/-- LDY with an operand in memory: constructors ldyDir, ldyExt, ldyIdx. -/
def ldyOf : MemOperand → Instr
  | .direct lo => .ldyDir lo
  | .extended addr => .ldyExt addr
  | .indexed ix => .ldyIdx ix

/-- LDU with an operand in memory: constructors lduDir, lduExt, lduIdx. -/
def lduOf : MemOperand → Instr
  | .direct lo => .lduDir lo
  | .extended addr => .lduExt addr
  | .indexed ix => .lduIdx ix

/-- STD with an operand in memory: constructors stdDir, stdExt, stdIdx. -/
def stdOf : MemOperand → Instr
  | .direct lo => .stdDir lo
  | .extended addr => .stdExt addr
  | .indexed ix => .stdIdx ix

/-- STX with an operand in memory: constructors stxDir, stxExt, stxIdx. -/
def stxOf : MemOperand → Instr
  | .direct lo => .stxDir lo
  | .extended addr => .stxExt addr
  | .indexed ix => .stxIdx ix

/-- STU with an operand in memory: constructors stuDir, stuExt, stuIdx. -/
def stuOf : MemOperand → Instr
  | .direct lo => .stuDir lo
  | .extended addr => .stuExt addr
  | .indexed ix => .stuIdx ix

/-- ASL with an operand in memory: constructors aslDir, aslExt, aslIdx. -/
def aslOf : MemOperand → Instr
  | .direct lo => .aslDir lo
  | .extended addr => .aslExt addr
  | .indexed ix => .aslIdx ix

/-- The postbyte row of an indexed form: the 24 constructors named `pb…`. -/
def postbyteRow : Indexed → Instr
  | .off5 r n => .pbOff5 r n
  | .inc1 r => .pbInc1 r
  | .inc2 r => .pbInc2 r
  | .inc2Ind r => .pbInc2Ind r
  | .dec1 r => .pbDec1 r
  | .dec2 r => .pbDec2 r
  | .dec2Ind r => .pbDec2Ind r
  | .zero r => .pbZero r
  | .zeroInd r => .pbZeroInd r
  | .accB r => .pbAccB r
  | .accBInd r => .pbAccBInd r
  | .accA r => .pbAccA r
  | .accAInd r => .pbAccAInd r
  | .off8 r n => .pbOff8 r n
  | .off8Ind r n => .pbOff8Ind r n
  | .off16 r n => .pbOff16 r n
  | .off16Ind r n => .pbOff16Ind r n
  | .accD r => .pbAccD r
  | .accDInd r => .pbAccDInd r
  | .pcr8 n => .pbPcr8 n
  | .pcr8Ind n => .pbPcr8Ind n
  | .pcr16 n => .pbPcr16 n
  | .pcr16Ind n => .pbPcr16Ind n
  | .extInd n => .pbExtInd n

/-- The instructions that read or write one byte at an operand in memory. -/
def byteInstrs (o : MemOperand) : List Instr := [ldaOf o, ldbOf o, aslOf o]

/-- The instructions that read or write two bytes at an operand in memory. -/
def wordInstrs (o : MemOperand) : List Instr :=
  [lddOf o, ldxOf o, ldyOf o, lduOf o, stdOf o, stxOf o, stuOf o]

/-- The instructions with an indexed operand, and the postbyte row by itself. -/
def indexedInstrs (ix : Indexed) : List Instr :=
  postbyteRow ix :: .leax ix :: (byteInstrs (.indexed ix) ++ wordInstrs (.indexed ix))

/-! ## Words about register lists (R96, R253) -/

/-- Bytes a member of a PSHS or PULU list takes on the stack: 2 for bits 4 to 7, 1 for bits 0 to 3. -/
def memberBytes (k : Nat) : Nat := if 4 ≤ k then 2 else 1

/-- Bytes the listed members below member `k` take: the member's offset from the lowest byte. -/
def memberOffset (list : Byte) (k : Nat) : Nat :=
  ((List.range k).map fun j => if list.getLsbD j then memberBytes j else 0).sum

/-- Bytes a whole list takes. -/
def listBytes (list : Byte) : Nat := memberOffset list 8

/-- The address of member `k` of a list stacked with its lowest byte at `base`. -/
def memberAt (base : Word) (list : Byte) (k : Nat) : Word := base + BitVec.ofNat 16 (memberOffset list k)

/-- The registers of `st` a list names lie in the memory of `t` from `base` up, CC lowest, PC highest. -/
def ListStacked (st t : State) (base : Word) (list : Byte) : Prop :=
  (list.getLsbD 0 = true → t.peek (memberAt base list 0) = st.cc) ∧
  (list.getLsbD 1 = true → t.peek (memberAt base list 1) = st.a) ∧
  (list.getLsbD 2 = true → t.peek (memberAt base list 2) = st.b) ∧
  (list.getLsbD 3 = true → t.peek (memberAt base list 3) = st.dp) ∧
  (list.getLsbD 4 = true → t.peekWord (memberAt base list 4) = st.x) ∧
  (list.getLsbD 5 = true → t.peekWord (memberAt base list 5) = st.y) ∧
  (list.getLsbD 6 = true → t.peekWord (memberAt base list 6) = st.u) ∧
  (list.getLsbD 7 = true → t.peekWord (memberAt base list 7) = st.pc)

/-! ## Words about stacked frames (R322, R323) -/

/-- The twelve bytes of the entire state, lowest first, with `cc` as the stacked CC (R322). -/
def entireFrame (st : State) (cc : Byte) : List Byte :=
  [cc, st.a, st.b, st.dp, highByte st.x, lowByte st.x, highByte st.y, lowByte st.y,
    highByte st.u, lowByte st.u, highByte st.pc, lowByte st.pc]

/-- The three bytes FIRQ stacks, lowest first (R323). -/
def fastFrame (st : State) (cc : Byte) : List Byte := [cc, highByte st.pc, lowByte st.pc]

/-- Bytes an entry stacks (R322, R323). -/
def frameBytes (ev : Event) : Nat := if ev = .firq then 3 else 12

/-- CC as an entry stacks it: E says how much is stacked (R324 to R326). -/
def stackedCc (st : State) (ev : Event) : Byte :=
  if ev = .firq then st.cc &&& 0x7F#8 else st.cc ||| 0x80#8

/-- What an entry stacks (R322, R323). -/
def frameOf (st : State) (ev : Event) : List Byte :=
  if ev = .firq then fastFrame st (stackedCc st ev) else entireFrame st (stackedCc st ev)

/-- The masks an entry sets: $40 is F, $10 is I (R312). -/
def masksOf : Event → Byte
  | .nmi | .firq | .swi => 0x50#8
  | .irq => 0x10#8
  | .swi2 | .swi3 => 0x00#8

/-- The address of an entry's vector (R312). -/
def vectorOf : Event → Word
  | .nmi => 0xFFFC#16
  | .swi => 0xFFFA#16
  | .irq => 0xFFF8#16
  | .firq => 0xFFF6#16
  | .swi2 => 0xFFF4#16
  | .swi3 => 0xFFF2#16

/-- The instruction whose effect is the entry, where there is one (R291 to R293). -/
def softwareInterrupt (ev : Event) (i : Instr) : Prop :=
  (ev = .swi ∧ i = .swi) ∨ (ev = .swi2 ∧ i = .swi2) ∨ (ev = .swi3 ∧ i = .swi3)

/-- From `st` to `t` a frame has been stacked: its bytes lie at the `frame.length` addresses below the
old S where those are RAM, and no other byte of memory has changed. -/
def FrameStacked (st t : State) (frame : List Byte) : Prop :=
  SameMemoryOutside st t (st.s - BitVec.ofNat 16 frame.length) frame.length ∧
    (st.mem.wf = true → RamFrom st (st.s - BitVec.ofNat 16 frame.length) frame.length →
      t.codeBytes frame.length (st.s - BitVec.ofNat 16 frame.length) = frame)

/-! ## Words about interrupts (R317 to R320) -/

/-- At this step an NMI is there to be taken: armed, and latched before or by an edge now. -/
abbrev NmiAtStep (st : State) : Prop :=
  st.nmiArmed = true ∧ (st.nmiPending = true ∨ st.input.nmiEdge = true)

/-- At this step FIRQ is asserted and not masked. -/
abbrev FirqAtStep (st : State) : Prop := st.input.firq = true ∧ getFlag st.cc .f = false

/-- At this step IRQ is asserted and not masked. -/
abbrev IrqAtStep (st : State) : Prop := st.input.irq = true ∧ getFlag st.cc .i = false

/-- The NMI latch after this step's look at the edge. -/
def latchAfter (st : State) : Bool := st.nmiPending || (st.input.nmiEdge && st.nmiArmed)

/-! ## Words about sets of instructions -/

/-- TFR to S, EXG with S in the pair, PULU with S in the list: the instructions that load S (R318). -/
def loadsS (i : Instr) : Prop :=
  (∃ r, i = .tfr r .s) ∨ (∃ r, i = .exg r .s) ∨ (∃ r, i = .exg .s r) ∨
    ∃ list : Byte, i = .pulu list ∧ list.getLsbD 6 = true

/-- The instructions that can write DP (R29): TFR and EXG with DP, PULU with DP in the list, RTI. -/
def canWriteDp (i : Instr) : Prop :=
  (∃ r, i = .tfr r .dp) ∨ (∃ r, i = .exg r .dp) ∨ (∃ r, i = .exg .dp r) ∨
    (∃ list : Byte, i = .pulu list ∧ list.getLsbD 3 = true) ∨ i = .rti

/-- The instructions that can change I or F (R28, R319): TFR and EXG with CC, PULU with CC in the list,
RTI, CWAI, SWI. -/
def canChangeMasks (i : Instr) : Prop :=
  (∃ r, i = .tfr r .cc) ∨ (∃ r, i = .exg r .cc) ∨ (∃ r, i = .exg .cc r) ∨
    (∃ list : Byte, i = .pulu list ∧ list.getLsbD 0 = true) ∨ i = .rti ∨ (∃ imm, i = .cwai imm) ∨
    i = .swi

/-- The instructions that store: STD, STX, STU, ASL, PSHS, the software interrupts and CWAI (R34). -/
def canStore : Instr → Bool
  | .stdDir _ | .stdIdx _ | .stdExt _ | .stxDir _ | .stxIdx _ | .stxExt _ | .stuDir _ | .stuIdx _
  | .stuExt _ | .aslDir _ | .aslIdx _ | .aslExt _ | .pshs _ | .swi | .swi2 | .swi3 | .cwai _ => true
  | .nop | .sync | .daa | .abx | .rti | .asra | .clrb | .ldaImm _ | .ldaDir _ | .ldaIdx _
  | .ldaExt _ | .ldbImm _ | .ldbDir _ | .ldbIdx _ | .ldbExt _ | .lddImm _ | .lddDir _
  | .lddIdx _ | .lddExt _ | .ldxImm _ | .ldxDir _ | .ldxIdx _ | .ldxExt _ | .ldyImm _
  | .ldyDir _ | .ldyIdx _ | .ldyExt _ | .lduImm _ | .lduDir _ | .lduIdx _ | .lduExt _ | .leax _
  | .exg _ _ | .tfr _ _ | .pulu _ | .beq _ | .bgt _ | .lbeq _ | .lbgt _ | .pbOff5 _ _
  | .pbInc1 _ | .pbInc2 _ | .pbInc2Ind _ | .pbDec1 _ | .pbDec2 _ | .pbDec2Ind _ | .pbZero _
  | .pbZeroInd _ | .pbAccB _ | .pbAccBInd _ | .pbAccA _ | .pbAccAInd _ | .pbOff8 _ _
  | .pbOff8Ind _ _ | .pbOff16 _ _ | .pbOff16Ind _ _ | .pbAccD _ | .pbAccDInd _ | .pbPcr8 _
  | .pbPcr8Ind _ | .pbPcr16 _ | .pbPcr16Ind _ | .pbExtInd _ => false

/-- What the table of R28 says of one flag and one instruction. -/
inductive FlagEntry
  /-- `-`: unchanged -/
  | kept
  /-- `0` or `1` -/
  | forced (v : Bool)
  /-- `*`, `u`, or replaced whole: this table alone does not say the value -/
  | byRule
  deriving DecidableEq, Repr

/-- A row of R28 in which the flags `own` are set by the instruction's rule and the rest kept. -/
def keptBut (own : List Flag) (g : Flag) : FlagEntry := if g ∈ own then .byRule else .kept

/-- The table of R28, instruction by instruction; the postbyte rows change no flag (D27). -/
def flagTable (g : Flag) : Instr → FlagEntry
  | .ldaImm _ | .ldaDir _ | .ldaIdx _ | .ldaExt _ | .ldbImm _ | .ldbDir _ | .ldbIdx _ | .ldbExt _
  | .lddImm _ | .lddDir _ | .lddIdx _ | .lddExt _ | .ldxImm _ | .ldxDir _ | .ldxIdx _ | .ldxExt _
  | .ldyImm _ | .ldyDir _ | .ldyIdx _ | .ldyExt _ | .lduImm _ | .lduDir _ | .lduIdx _ | .lduExt _
  | .stdDir _ | .stdIdx _ | .stdExt _ | .stxDir _ | .stxIdx _ | .stxExt _ | .stuDir _ | .stuIdx _
  | .stuExt _ => if g = .v then .forced false else keptBut [.n, .z] g
  | .leax _ => keptBut [.z] g
  | .aslDir _ | .aslIdx _ | .aslExt _ => keptBut [.h, .n, .z, .v, .c] g
  | .asra => keptBut [.h, .n, .z, .c] g
  | .clrb => if g = .z then .forced true else if g ∈ [Flag.n, .v, .c] then .forced false else .kept
  | .daa => keptBut [.n, .z, .v, .c] g
  | .tfr _ r2 => if r2 = .cc then .byRule else .kept
  | .exg r1 r2 => if r1 = .cc ∨ r2 = .cc then .byRule else .kept
  | .pulu list => if list.getLsbD 0 then .byRule else .kept
  | .swi => if g ∈ [Flag.e, .f, .i] then .forced true else .kept
  | .swi2 | .swi3 => if g = .e then .forced true else .kept
  | .cwai _ => if g = .e then .forced true else .byRule
  | .rti => .byRule
  | .abx | .nop | .sync | .pshs _ | .beq _ | .bgt _ | .lbeq _ | .lbgt _ | .pbOff5 _ _
  | .pbInc1 _ | .pbInc2 _ | .pbInc2Ind _ | .pbDec1 _ | .pbDec2 _ | .pbDec2Ind _ | .pbZero _
  | .pbZeroInd _ | .pbAccB _ | .pbAccBInd _ | .pbAccA _ | .pbAccAInd _ | .pbOff8 _ _
  | .pbOff8Ind _ _ | .pbOff16 _ _ | .pbOff16Ind _ _ | .pbAccD _ | .pbAccDInd _ | .pbPcr8 _
  | .pbPcr8Ind _ | .pbPcr16 _ | .pbPcr16Ind _ | .pbExtInd _ => .kept

/-- A flag went from `old` to `new` as an entry says. -/
def FlagEntry.Allows (old new : Byte) (g : Flag) : FlagEntry → Prop
  | .kept => getFlag new g = getFlag old g
  | .forced v => getFlag new g = v
  | .byRule => True

/-- The byte an 8-bit load has moved, read from the register after it; `none` for other instructions. -/
def movedByte (t : State) : Instr → Option Byte
  | .ldaImm _ | .ldaDir _ | .ldaIdx _ | .ldaExt _ => some t.a
  | .ldbImm _ | .ldbDir _ | .ldbIdx _ | .ldbExt _ => some t.b
  | .nop | .sync | .daa | .abx | .rti | .swi | .swi2 | .swi3 | .asra | .clrb | .cwai _
  | .aslDir _ | .aslIdx _ | .aslExt _ | .lddImm _ | .lddDir _ | .lddIdx _ | .lddExt _
  | .ldxImm _ | .ldxDir _ | .ldxIdx _ | .ldxExt _ | .ldyImm _ | .ldyDir _ | .ldyIdx _
  | .ldyExt _ | .lduImm _ | .lduDir _ | .lduIdx _ | .lduExt _ | .stdDir _ | .stdIdx _
  | .stdExt _ | .stxDir _ | .stxIdx _ | .stxExt _ | .stuDir _ | .stuIdx _ | .stuExt _ | .leax _
  | .exg _ _ | .tfr _ _ | .pshs _ | .pulu _ | .beq _ | .bgt _ | .lbeq _ | .lbgt _ | .pbOff5 _ _
  | .pbInc1 _ | .pbInc2 _ | .pbInc2Ind _ | .pbDec1 _ | .pbDec2 _ | .pbDec2Ind _ | .pbZero _
  | .pbZeroInd _ | .pbAccB _ | .pbAccBInd _ | .pbAccA _ | .pbAccAInd _ | .pbOff8 _ _
  | .pbOff8Ind _ _ | .pbOff16 _ _ | .pbOff16Ind _ _ | .pbAccD _ | .pbAccDInd _ | .pbPcr8 _
  | .pbPcr8Ind _ | .pbPcr16 _ | .pbPcr16Ind _ | .pbExtInd _ => none

/-- The 16-bit value a load or store has moved, read from the register after it; `none` for other
instructions. -/
def movedWord (t : State) : Instr → Option Word
  | .lddImm _ | .lddDir _ | .lddIdx _ | .lddExt _ | .stdDir _ | .stdIdx _ | .stdExt _ => some (t.a ++ t.b)
  | .ldxImm _ | .ldxDir _ | .ldxIdx _ | .ldxExt _ | .stxDir _ | .stxIdx _ | .stxExt _ => some t.x
  | .ldyImm _ | .ldyDir _ | .ldyIdx _ | .ldyExt _ => some t.y
  | .lduImm _ | .lduDir _ | .lduIdx _ | .lduExt _ | .stuDir _ | .stuIdx _ | .stuExt _ => some t.u
  | .nop | .sync | .daa | .abx | .rti | .swi | .swi2 | .swi3 | .asra | .clrb | .cwai _
  | .aslDir _ | .aslIdx _ | .aslExt _ | .ldaImm _ | .ldaDir _ | .ldaIdx _ | .ldaExt _
  | .ldbImm _ | .ldbDir _ | .ldbIdx _ | .ldbExt _ | .leax _ | .exg _ _ | .tfr _ _ | .pshs _
  | .pulu _ | .beq _ | .bgt _ | .lbeq _ | .lbgt _ | .pbOff5 _ _ | .pbInc1 _ | .pbInc2 _
  | .pbInc2Ind _ | .pbDec1 _ | .pbDec2 _ | .pbDec2Ind _ | .pbZero _ | .pbZeroInd _ | .pbAccB _
  | .pbAccBInd _ | .pbAccA _ | .pbAccAInd _ | .pbOff8 _ _ | .pbOff8Ind _ _ | .pbOff16 _ _
  | .pbOff16Ind _ _ | .pbAccD _ | .pbAccDInd _ | .pbPcr8 _ | .pbPcr8Ind _ | .pbPcr16 _
  | .pbPcr16Ind _ | .pbExtInd _ => none

/-- Two registers of R95 share storage: they are the same, or one is D and the other A or B. -/
def overlap (r q : Reg) : Bool :=
  r == q || (r == .d && (q == .a || q == .b)) || (q == .d && (r == .a || r == .b))

/-- The nine illegal indexed postbytes under the mask $9F (R94). -/
def illegalPostbytes : List Byte :=
  [0x87#8, 0x8A#8, 0x8E#8, 0x8F#8, 0x90#8, 0x92#8, 0x97#8, 0x9A#8, 0x9E#8]

/-- The 48 opcodes of R99 with no prefix. -/
def opcodesAlone : List Byte :=
  [0x12#8, 0x13#8, 0x19#8, 0x3A#8, 0x3B#8, 0x3C#8, 0x3F#8, 0x47#8, 0x5F#8] ++
  [0x08#8, 0x68#8, 0x78#8] ++
  [0x86#8, 0x96#8, 0xA6#8, 0xB6#8, 0xC6#8, 0xD6#8, 0xE6#8, 0xF6#8, 0xCC#8, 0xDC#8, 0xEC#8, 0xFC#8] ++
  [0x8E#8, 0x9E#8, 0xAE#8, 0xBE#8, 0xCE#8, 0xDE#8, 0xEE#8, 0xFE#8] ++
  [0xDD#8, 0xED#8, 0xFD#8, 0x9F#8, 0xAF#8, 0xBF#8, 0xDF#8, 0xEF#8, 0xFF#8] ++
  [0x30#8, 0x1E#8, 0x1F#8, 0x34#8, 0x37#8, 0x27#8, 0x2E#8]

/-- The seven opcodes of R99 after the prefix $10: SWI2, LDY, LBEQ, LBGT. -/
def opcodesAfter10 : List Byte := [0x3F#8, 0x8E#8, 0x9E#8, 0xAE#8, 0xBE#8, 0x27#8, 0x2E#8]

/-- The one opcode of R99 after the prefix $11: SWI3. -/
def opcodesAfter11 : List Byte := [0x3F#8]

/-- The register codes of a TFR or EXG postbyte to which R95 gives no register. -/
def unusedRegisterCodes : List (BitVec 4) := [0x6#4, 0x7#4, 0xC#4, 0xD#4, 0xE#4, 0xF#4]

/-- The opcode bytes of the indexed instructions with no prefix (R99). -/
def indexedOpcodes : List Byte :=
  [0x30#8, 0x68#8, 0xA6#8, 0xAE#8, 0xAF#8, 0xE6#8, 0xEC#8, 0xED#8, 0xEE#8, 0xEF#8]

end Sys2Proof.Statements

open Sys2Proof Sys2Proof.Machine Sys2Proof.Statements

/-! ## Encoding -/

/-- Every well-formed instruction, at every value of every operand, decodes from its own bytes and leaves
what follows them (R82, R86 to R92, R95, R96, R99). -/
def Obligations.DecodeOfEncodeIsTheInstruction : Prop :=
  ∀ (i : Instr) (rest : List Byte), i.wellFormed = true → decode (encode i ++ rest) = .ok (i, rest)

/-- What the decoder answers is a well-formed instruction, of 1 to 5 bytes, which are as many as its
encoding has; the bytes after them are untouched (R80, R82, R95). -/
def Obligations.DecodedInstructionsAreWellFormed : Prop :=
  ∀ (bytes rest : List Byte) (i : Instr), decode bytes = .ok (i, rest) →
    i.wellFormed = true ∧
      ∃ used, bytes = used ++ rest ∧ used.length = (encode i).length ∧
        1 ≤ used.length ∧ used.length ≤ 5

/-- Words written out from the spec's encodings decode to the instructions they stand for (R87, R89, R95,
R99; 95_test_vectors.md section 1). A sanity statement on fixed words. -/
def Obligations.SpecWordsDecodeToTheirInstructions : Prop :=
  decode [0x10#8, 0xAE#8, 0x89#8, 0x01#8, 0x2C#8] = .ok (.ldyIdx (.off16 .x 300#16), []) ∧
  decode [0xA6#8, 0x98#8, 0x10#8] = .ok (.ldaIdx (.off8Ind .x 0x10#8), []) ∧
  decode [0xAE#8, 0x7E#8] = .ok (.ldxIdx (.off5 .s 0b11110#5), []) ∧
  decode [0xAE#8, 0x9F#8, 0xFF#8, 0xFE#8] = .ok (.ldxIdx (.extInd 0xFFFE#16), []) ∧
  decode [0x1F#8, 0x12#8] = .ok (.tfr .x .y, []) ∧
  decode [0x34#8, 0x36#8] = .ok (.pshs 0b00110110#8, []) ∧
  decode [0x10#8, 0x27#8, 0x01#8, 0x00#8] = .ok (.lbeq 0x0100#16, []) ∧
  decode [0x11#8, 0x3F#8] = .ok (.swi3, [])

/-- The illegal indexed postbytes are the nine patterns of R94 and no others: 36 of the 256 values. -/
def Obligations.IllegalIndexedPostbytesAreTheNinePatterns : Prop :=
  (∀ (pb : Byte) (rest : List Byte),
    decodeIndexed (pb :: rest) = .error (.illegalPostbyte pb) ↔ (pb &&& 0x9F#8) ∈ illegalPostbytes) ∧
  ((List.range 256).filter fun n => (BitVec.ofNat 8 n &&& 0x9F#8) ∈ illegalPostbytes).length = 36

/-- Bits 6:5 of the postbytes of an offset from PC and of extended indirect do not enter the decoding
(R93). -/
def Obligations.DontCarePostbyteBitsDoNotChangeTheForm : Prop :=
  ∀ (pb pb' : Byte) (rest : List Byte),
    (pb &&& 0x9F#8) ∈ [0x8C#8, 0x9C#8, 0x8D#8, 0x9D#8, 0x9F#8] → pb &&& 0x9F#8 = pb' &&& 0x9F#8 →
      decodeIndexed (pb :: rest) = decodeIndexed (pb' :: rest)

/-! ## The step -/

/-- A step that executes an instruction runs the one the bytes at PC decode to, on the state with PC
after its bytes, the step's inputs used up and an NMI edge latched (R26, R57, R82, R321). The
instruction's own bytes are asked to be RAM or ROM, no others. -/
def Obligations.StepRunsTheDecodedInstruction : Prop :=
  ∀ (st : State) (i : Instr) (rest : List Byte), st.quiet = true →
    decode (st.codeBytes 5 st.pc) = .ok (i, rest) → BackedFrom st st.pc (5 - rest.length) →
      step st = exec i { st.atFetch with pc := st.pc + BitVec.ofNat 16 (5 - rest.length) }

/-- An opcode with no row is refused with the bytes that make it: a byte that is neither a prefix nor one
of the 48 opcodes of R99 with no prefix; $10 before a byte that is none of the seven of its page; $11
before any byte but $3F. So is a prefix followed by a prefix (R99, R103). -/
def Obligations.StepRefusesUnknownOpcodes : Prop :=
  ∀ st : State, st.quiet = true → st.backed st.pc = true →
    (st.peek st.pc ∉ 0x10#8 :: 0x11#8 :: opcodesAlone →
      step st = .refused (.unknownOpcode [st.peek st.pc])) ∧
    (st.backed (st.pc + 1#16) = true →
      (st.peek st.pc = 0x10#8 → st.peek (st.pc + 1#16) ∉ opcodesAfter10 →
        step st = .refused (.unknownOpcode [0x10#8, st.peek (st.pc + 1#16)])) ∧
      (st.peek st.pc = 0x11#8 → st.peek (st.pc + 1#16) ∉ opcodesAfter11 →
        step st = .refused (.unknownOpcode [0x11#8, st.peek (st.pc + 1#16)])) ∧
      (st.peek st.pc = 0x10#8 ∨ st.peek st.pc = 0x11#8 →
        st.peek (st.pc + 1#16) = 0x10#8 ∨ st.peek (st.pc + 1#16) = 0x11#8 →
        step st = .refused (.unknownOpcode [st.peek st.pc, st.peek (st.pc + 1#16)])))

/-- An illegal postbyte after an indexed opcode, LDY's included, stops the step with the fault that
names it; a fault carries no state, so nothing has been written (R94, R184). -/
def Obligations.StepFaultsOnIllegalPostbytes : Prop :=
  ∀ st : State, st.quiet = true →
    (BackedFrom st st.pc 2 → st.peek st.pc ∈ indexedOpcodes →
      (st.peek (st.pc + 1#16) &&& 0x9F#8) ∈ illegalPostbytes →
      step st = .fault (.illegalPostbyte (st.peek (st.pc + 1#16)))) ∧
    (BackedFrom st st.pc 3 → st.peek st.pc = 0x10#8 → st.peek (st.pc + 1#16) = 0xAE#8 →
      (st.peek (st.pc + 2#16) &&& 0x9F#8) ∈ illegalPostbytes →
      step st = .fault (.illegalPostbyte (st.peek (st.pc + 2#16))))

/-- A TFR or EXG postbyte of which a half is a code that names no register (6, 7, $C to $F), or whose
halves differ in bit 3, so that one register has 8 bits and the other 16, is refused by the step; a pair of
two widths is refused by the meanings too, before any write (R95, R256, R257). -/
def Obligations.IllegalRegisterPairsAreRefused : Prop :=
  (∀ st : State, st.quiet = true → BackedFrom st st.pc 2 →
    st.peek st.pc = 0x1F#8 ∨ st.peek st.pc = 0x1E#8 →
    ∀ pb, pb = st.peek (st.pc + 1#16) →
      pb.extractLsb' 4 4 ∈ unusedRegisterCodes ∨ pb.extractLsb' 0 4 ∈ unusedRegisterCodes ∨
        pb.getLsbD 7 ≠ pb.getLsbD 3 →
      step st = .refused (.illegalRegisterCode pb)) ∧
  ∀ (r1 r2 : Reg) (st : State), r1.isWide ≠ r2.isWide →
    exec (.tfr r1 r2) st = .refused (.illegalRegisterCode (r1.code ++ r2.code)) ∧
    exec (.exg r1 r2) st = .refused (.illegalRegisterCode (r1.code ++ r2.code))

/-! ## Memory -/

/-- A 16-bit value lies in memory high byte first: a read joins the byte at the address and the byte at
the next address modulo 2^16; a write to RAM puts bits 15:8 and bits 7:0 there, changes no other byte, and
is read back (R52, R53). -/
def Obligations.WordsLieInMemoryHighByteFirst : Prop :=
  (∀ (st : State) (addr : Word), BackedFrom st addr 2 →
    readWord addr st = .next (st.peek addr ++ st.peek (addr + 1#16), st)) ∧
  ∀ (st : State) (addr v : Word), st.mem.wf = true → RamFrom st addr 2 →
    ∃ t, writeWord addr v st = .next t ∧
      t.peek addr = v.extractLsb' 8 8 ∧ t.peek (addr + 1#16) = v.extractLsb' 0 8 ∧
      (∀ a, a ≠ addr → a ≠ addr + 1#16 → t.peek a = st.peek a) ∧
      t = { st with mem := t.mem } ∧ t.mem.wf = true ∧ readWord addr t = .next (v, t)

/-- An access to an address of kind unmapped stops with the fault that names it: a read, a write, either
byte of a word, a vector, any byte of an instruction's fetch, the pointer of an indirect form, the operand
of every load, store and ASL. That such an access faults, a write included, is the model's choice (log 9;
R61 also lets MemMap answer it with a draw). Pushes, pulls and entries are the next statement. -/
def Obligations.UnmappedAddressesFaultEveryAccess : Prop :=
  ∀ st : State,
    (∀ addr, st.mapped addr = false →
      readByte addr st = .fault (.unmapped addr) ∧
      ∀ v, writeByte addr v st = .fault (.unmapped addr)) ∧
    (∀ addr k, UnmappedGoingUp st addr 2 k →
      readWord addr st = .fault (.unmapped (addr + BitVec.ofNat 16 k)) ∧
      (∀ v, writeWord addr v st = .fault (.unmapped (addr + BitVec.ofNat 16 k))) ∧
      jumpToVector addr st = .fault (.unmapped (addr + BitVec.ofNat 16 k))) ∧
    (∀ k, st.quiet = true → BackedFrom st st.pc k → decode (st.codeBytes k st.pc) = .error .truncated →
      st.mapped (st.pc + BitVec.ofNat 16 k) = false →
      step st = .fault (.unmapped (st.pc + BitVec.ofNat 16 k))) ∧
    (∀ ix k, isIndirect ix = true → UnmappedGoingUp st (plainAddress st ix) 2 k →
      ∀ i ∈ indexedInstrs ix,
        exec i st = .fault (.unmapped (plainAddress st ix + BitVec.ofNat 16 k))) ∧
    ∀ (o : MemOperand) (u : State), o.Reaches st u →
      (st.mapped u.temp = false → ∀ i ∈ byteInstrs o, exec i st = .fault (.unmapped u.temp)) ∧
      ∀ k, UnmappedGoingUp st u.temp 2 k →
        ∀ i ∈ wordInstrs o, exec i st = .fault (.unmapped (u.temp + BitVec.ofNat 16 k))

/-- A push, a pull, an entry or a RESET that meets an address of kind unmapped stops with the fault that
names the first it meets: going down from S for PSHS, the software interrupts, CWAI and the interrupt
entries, going up from U for PULU and from S for RTI, which goes past PC and CC only if the E it pulled is
1; then the two bytes of the vector (R254, R258, R259, R294, R314, R322, R323). That such an access faults
is the model's choice (log 9). -/
def Obligations.UnmappedStacksAndVectorsFault : Prop :=
  ∀ st : State,
    (∀ list k, UnmappedGoingDown st (st.s - 1#16) (listBytes list) k →
      exec (.pshs list) st = .fault (.unmapped (st.s - 1#16 - BitVec.ofNat 16 k))) ∧
    (∀ k, UnmappedGoingDown st (st.s - 1#16) 12 k →
      ∀ imm, exec (.cwai imm) st = .fault (.unmapped (st.s - 1#16 - BitVec.ofNat 16 k))) ∧
    (∀ ev k, UnmappedGoingDown st (st.s - 1#16) (frameBytes ev) k →
      enterException ev st = .fault (.unmapped (st.s - 1#16 - BitVec.ofNat 16 k))) ∧
    (∀ ev k, MappedFrom st (st.s - BitVec.ofNat 16 (frameBytes ev)) (frameBytes ev) →
      UnmappedGoingUp st (vectorOf ev) 2 k →
      enterException ev st = .fault (.unmapped (vectorOf ev + BitVec.ofNat 16 k))) ∧
    (∀ ev i, softwareInterrupt ev i → exec i st = enterException ev st) ∧
    (∀ list k, UnmappedGoingUp st st.u (listBytes list) k →
      exec (.pulu list) st = .fault (.unmapped (st.u + BitVec.ofNat 16 k))) ∧
    (∀ k, UnmappedGoingUp st st.s 3 k → exec .rti st = .fault (.unmapped (st.s + BitVec.ofNat 16 k))) ∧
    (∀ v t k, readByte st.s st = .next (v, t) → v.getLsbD 7 = true → UnmappedGoingUp st st.s 12 k →
      exec .rti st = .fault (.unmapped (st.s + BitVec.ofNat 16 k))) ∧
    ∀ k, st.input.reset = true → UnmappedGoingUp st 0xFFFE#16 2 k →
      step st = .fault (.unmapped (0xFFFE#16 + BitVec.ofNat 16 k))

/-- Every load, every store, ASL, LEAX and the postbyte rows complete wherever something answers, be it
RAM, ROM, a device or an open bus, the pointer of an indirect form included: the value is the answer to
the one read of it, the store is the one write of it, flags and registers follow the instruction's rule,
and no other byte of memory changes (R61, R181, R182, R201 to R211, R232). What a device answers is its
read function (log 8), an open bus a draw (log 9). -/
def Obligations.DeviceAccessesComplete : Prop :=
  ∀ (st : State) (o : MemOperand), o.PointerMapped st →
    ∃ u, o.Reaches st u ∧
      (∀ ix, o = .indexed ix →
        exec (postbyteRow ix) st = .next u ∧
        ∃ t, exec (.leax ix) st = .next t ∧ t = { u with x := u.temp, cc := t.cc } ∧
          ∀ g, getFlag t.cc g = if g = .z then decide (u.temp = 0#16) else getFlag st.cc g) ∧
      (st.mapped u.temp = true →
        ∃ v w, readByte u.temp u = .next (v, w) ∧
          w = { u with devices := w.devices, draws := w.draws } ∧
          (∃ t, exec (ldaOf o) st = .next t ∧ t = { w with a := v, cc := t.cc } ∧
            MoveFlags v.msb (v == 0#8) st.cc t.cc) ∧
          (∃ t, exec (ldbOf o) st = .next t ∧ t = { w with b := v, cc := t.cc } ∧
            MoveFlags v.msb (v == 0#8) st.cc t.cc) ∧
          ∃ y t, writeByte u.temp (v + v) w = .next y ∧ exec (aslOf o) st = .next t ∧
            t = { y with cc := t.cc, draws := t.draws } ∧ SameMemoryOutside st t u.temp 1 ∧
            getFlag t.cc .c = v.getLsbD 7 ∧ getFlag t.cc .n = v.getLsbD 6 ∧
            getFlag t.cc .z = decide (v + v = 0#8) ∧
            getFlag t.cc .v = (v.getLsbD 7 ^^ v.getLsbD 6) ∧
            ∀ g, g = Flag.e ∨ g = Flag.f ∨ g = Flag.i → getFlag t.cc g = getFlag st.cc g) ∧
      (MappedFrom st u.temp 2 →
        (∃ v w, readWord u.temp u = .next (v, w) ∧
          w = { u with devices := w.devices, draws := w.draws } ∧
          (∃ t, exec (lddOf o) st = .next t ∧
            t = { w with a := v.extractLsb' 8 8, b := v.extractLsb' 0 8, cc := t.cc } ∧
            MoveFlags v.msb (v == 0#16) st.cc t.cc) ∧
          (∃ t, exec (ldxOf o) st = .next t ∧ t = { w with x := v, cc := t.cc } ∧
            MoveFlags v.msb (v == 0#16) st.cc t.cc) ∧
          (∃ t, exec (ldyOf o) st = .next t ∧ t = { w with y := v, cc := t.cc } ∧
            MoveFlags v.msb (v == 0#16) st.cc t.cc) ∧
          ∃ t, exec (lduOf o) st = .next t ∧ t = { w with u := v, cc := t.cc } ∧
            MoveFlags v.msb (v == 0#16) st.cc t.cc) ∧
        ∀ (i : Instr) (v : Word), (i = stdOf o ∧ v = st.a ++ st.b) ∨ (i = stxOf o ∧ v = u.x) ∨
            (i = stuOf o ∧ v = u.u) →
          ∃ y t, writeWord u.temp v u = .next y ∧ exec i st = .next t ∧ t = { y with cc := t.cc } ∧
            MoveFlags v.msb (v == 0#16) st.cc t.cc ∧ SameMemoryOutside st t u.temp 2)

/-- PULU, RTI and every entry complete wherever something answers, the stack or the vector in a device or
an open bus included. A pull reads its bytes going up from the stack pointer, one read each: every listed
register, or every register of the frame, is the byte or the word answered at its place, CC lowest and PC
highest, the others are kept, the pointer moves by the bytes read. An entry writes the bytes of its frame
going down from S, one write each, then PC is the word the vector answers in the state after that. Nothing
changes but what these accesses change (R61, R254, R259, R294, R312, R314, R322, R323). PSHS, CWAI and a
stack in RAM are stated with their instructions. -/
def Obligations.PullsAndEntriesCompleteWhateverAnswers : Prop :=
  ∀ st : State,
    (∀ list : Byte, MappedFrom st st.u (listBytes list) →
      ∃ bytes w, bytes.length = listBytes list ∧ AnsweredGoingUp st st.u bytes w ∧
        w = { st with devices := w.devices, draws := w.draws } ∧
        exec (.pulu list) st = .next
          { w with
            cc := if list.getLsbD 0 then byteOf bytes (memberOffset list 0) else st.cc
            a := if list.getLsbD 1 then byteOf bytes (memberOffset list 1) else st.a
            b := if list.getLsbD 2 then byteOf bytes (memberOffset list 2) else st.b
            dp := if list.getLsbD 3 then byteOf bytes (memberOffset list 3) else st.dp
            x := if list.getLsbD 4 then wordOf bytes (memberOffset list 4) else st.x
            y := if list.getLsbD 5 then wordOf bytes (memberOffset list 5) else st.y
            s := if list.getLsbD 6 then wordOf bytes (memberOffset list 6) else st.s
            nmiArmed := st.nmiArmed || list.getLsbD 6
            pc := if list.getLsbD 7 then wordOf bytes (memberOffset list 7) else st.pc
            u := st.u + BitVec.ofNat 16 (listBytes list) }) ∧
    (∀ v v1, readByte st.s st = .next (v, v1) →
      (v.getLsbD 7 = true → MappedFrom st st.s 12 →
        ∃ bytes w, bytes.length = 12 ∧ AnsweredGoingUp st st.s bytes w ∧
          w = { st with devices := w.devices, draws := w.draws } ∧
          exec .rti st = .next
            { w with
              cc := byteOf bytes 0, a := byteOf bytes 1, b := byteOf bytes 2, dp := byteOf bytes 3
              x := wordOf bytes 4, y := wordOf bytes 6, u := wordOf bytes 8, pc := wordOf bytes 10
              s := st.s + 12#16 }) ∧
      (v.getLsbD 7 = false → MappedFrom st st.s 3 →
        ∃ bytes w, bytes.length = 3 ∧ AnsweredGoingUp st st.s bytes w ∧
          w = { st with devices := w.devices, draws := w.draws } ∧
          exec .rti st = .next
            { w with cc := byteOf bytes 0, pc := wordOf bytes 1, s := st.s + 3#16 })) ∧
    ∀ ev : Event, MappedFrom st (st.s - BitVec.ofNat 16 (frameBytes ev)) (frameBytes ev) →
      MappedFrom st (vectorOf ev) 2 →
      ∃ stacked handler w t, WrittenGoingDown st (st.s - 1#16) (frameOf st ev).reverse stacked ∧
        readWord (vectorOf ev) stacked = .next (handler, w) ∧
        w = { st with mem := stacked.mem, devices := w.devices, draws := w.draws } ∧
        enterException ev st = .next t ∧ (∀ i, softwareInterrupt ev i → exec i st = .next t) ∧
        t = { w with
              cc := stackedCc st ev ||| masksOf ev, s := st.s - BitVec.ofNat 16 (frameBytes ev)
              pc := handler, nmiPending := st.nmiPending && ev != .nmi } ∧
        FrameStacked st t (frameOf st ev)

/-- An access to a device is its own affair: it changes no register of the MPU, no memory and no other
device, and what it answers and leaves in the device depends on the device's registers, the address, the
byte written and the draw alone. A device whose write function keeps the byte in a register and whose read
function answers that register reads back what was written. R61 gives a device a read and a write
function; how the model carries them is log 8. -/
def Obligations.DeviceAccessesStayInTheDevice : Prop :=
  ∀ (st : State) (addr : Word) (d : Device), st.kindAt addr = .device d →
    (∃ v t, readByte addr st = .next (v, t) ∧
      t = { st with devices := t.devices, draws := t.draws } ∧
      (∀ m, m ≠ d.number → t.devices[m]? = st.devices[m]?) ∧
      ∀ st' : State, st'.kindAt addr = .device d → st'.draws = st.draws →
        st'.devices[d.number]? = st.devices[d.number]? →
        ∃ t', readByte addr st' = .next (v, t') ∧ t'.devices[d.number]? = t.devices[d.number]?) ∧
    ∀ v : Byte, ∃ t, writeByte addr v st = .next t ∧
      t = { st with devices := t.devices, draws := t.draws } ∧
      (∀ m, m ≠ d.number → t.devices[m]? = st.devices[m]?) ∧
      (∀ st' : State, st'.kindAt addr = .device d → st'.draws = st.draws →
        st'.devices[d.number]? = st.devices[d.number]? →
        ∃ t', writeByte addr v st' = .next t' ∧ t'.devices[d.number]? = t.devices[d.number]?) ∧
      ∀ k regs, st.devices[d.number]? = some regs → k < regs.length → d.onWrite = [(k, .data)] →
        d.readValue = .reg k → ∃ w, readByte addr t = .next (v, w)

/-- No step changes a byte that is not RAM: ROM keeps its contents whatever is stored to it (R61). That a
device keeps its state apart from memory, so that its addresses hold no byte that changes, and that an open
bus loses a write, is the model's choice (log 8, log 9). -/
def Obligations.NoStepChangesMemoryOutsideRam : Prop :=
  ∀ (st t : State) (addr : Word), step st = .next t → st.kindAt addr ≠ .ram →
    t.peek addr = st.peek addr

/-- An instruction that stores nothing leaves every byte of memory as it was (R34, R58). -/
def Obligations.InstructionsThatStoreNothingLeaveMemory : Prop :=
  ∀ (i : Instr) (st t : State), canStore i = false → exec i st = .next t → t.mem = st.mem

/-! ## Invariants -/

/-- Every step from a state that meets the invariant, reached or not, gives one that meets it: memory in
canonical form, an NMI latched only while armed (R317, R318), E = 1 while waiting after CWAI (R295). -/
def Obligations.EveryStepKeepsTheInvariant : Prop :=
  ∀ st t : State, st.Inv → step st = .next t → t.Inv

/-- The state after reset meets the invariant. -/
def Obligations.ResetMeetsTheInvariant : Prop := State.reset.Inv

/-- The values the spec gives for reset (R35, R351): DP = $00, F = I = 1, NMI disarmed and none pending,
Running, PC the word at the reset vector; the other registers are not spoken of. -/
def Obligations.ResetStateHoldsTheValuesTheSpecGives : Prop :=
  State.reset.dp = 0x00#8 ∧ getFlag State.reset.cc .f = true ∧ getFlag State.reset.cc .i = true ∧
    State.reset.nmiArmed = false ∧ State.reset.nmiPending = false ∧
    State.reset.runState = .running ∧ State.reset.pc = State.reset.peekWord 0xFFFE#16

/-- A step changes no part of MemMap and uses up one entry of Env, no more (R7, R315; how the model
carries the two is log 7 and log 10). -/
def Obligations.NoStepChangesMemMapAndEachUsesOneInput : Prop :=
  ∀ st t : State, step st = .next t → t.map = st.map ∧ t.env = st.env.tail

/-- An instruction arms NMI only if it loads S, and none disarms it (R318). -/
def Obligations.OnlyLoadsOfSArmNmi : Prop :=
  ∀ (i : Instr) (st t : State), exec i st = .next t →
    (loadsS i → t.nmiArmed = true) ∧ (¬ loadsS i → t.nmiArmed = st.nmiArmed)

/-- DP is written only by TFR and EXG with DP, PULU with DP in the list, and RTI (R29). -/
def Obligations.OnlyTransfersPullsAndRtiWriteTheDirectPage : Prop :=
  ∀ (i : Instr) (st t : State), exec i st = .next t → ¬ canWriteDp i → t.dp = st.dp

/-- The masks I and F change only by TFR and EXG with CC, PULU with CC in the list, RTI, CWAI and SWI
(R28, R319). -/
def Obligations.OnlyListedInstructionsChangeTheMasks : Prop :=
  ∀ (i : Instr) (st t : State), exec i st = .next t → ¬ canChangeMasks i →
    getFlag t.cc .i = getFlag st.cc .i ∧ getFlag t.cc .f = getFlag st.cc .f

/-- The table of flags written (R28): every flag of every instruction is kept or forced as its row says,
whatever memory answers; the interrupt entries set E, F and I as their rows say and keep the rest. Entries
the table leaves to the instruction's rule are stated with that instruction. -/
def Obligations.FlagsChangeAsTheTableSays : Prop :=
  (∀ (i : Instr) (st t : State) (g : Flag), exec i st = .next t →
    FlagEntry.Allows st.cc t.cc g (flagTable g i)) ∧
  ∀ (ev : Event) (st t : State) (g : Flag), enterException ev st = .next t →
    getFlag t.cc g =
      match g with
      | .e => ev != .firq
      | .i => ev == .nmi || ev == .firq || ev == .irq || ev == .swi || getFlag st.cc .i
      | .f => ev == .nmi || ev == .firq || ev == .swi || getFlag st.cc .f
      | .h | .n | .z | .v | .c => getFlag st.cc g

/-- Only SYNC and CWAI change the run state, and no instruction touches the NMI latch (R33, R295,
R296). -/
def Obligations.OnlySyncAndCwaiBeginAWait : Prop :=
  ∀ (i : Instr) (st t : State), exec i st = .next t →
    t.nmiPending = st.nmiPending ∧
      (i = .sync ∧ t.runState = .syncWait ∨ (∃ imm, i = .cwai imm) ∧ t.runState = .cwaiWait ∨
        i ≠ .sync ∧ (∀ imm, i ≠ .cwai imm) ∧ t.runState = st.runState)

/-- What the holding register held before a step makes no difference to anything but the holding
register: it does not survive an instruction (R20, R32; that State has the field is log 12). -/
def Obligations.HoldingRegisterIsNeverObserved : Prop :=
  ∀ (st : State) (w : Word), agreeButTempResult (step { st with temp := w }) (step st)

/-! ## Addressing -/

/-- Each of the 24 postbyte rows, by its constructor `pb…`, holds the effective address of its form and
steps the pointer register of an auto form, and does nothing else (R151, R160 to R167, R172, R175,
R176). That the rows are constructors is the model's choice (log 13). -/
def Obligations.PostbyteRowsHoldTheirEffectiveAddress : Prop :=
  ∀ (ix : Indexed) (st : State), PointerBacked st ix →
    exec (postbyteRow ix) st = .next { stepped st ix with temp := indexedAddress st ix }

/-- Whatever memory answers, the address computation changes no register but a pointer register, and
that only in the four auto forms; no flag, no memory (R183). It is stated of the postbyte rows by
themselves, constructors by the model's choice (log 13). -/
def Obligations.OnlyAutoFormsWriteAPointerRegister : Prop :=
  ∀ (ix : Indexed) (st t : State), exec (postbyteRow ix) st = .next t →
    t = { st with temp := t.temp, x := t.x, y := t.y, u := t.u, s := t.s,
                  devices := t.devices, draws := t.draws } ∧
      (isAuto ix = false → t.x = st.x ∧ t.y = st.y ∧ t.u = st.u ∧ t.s = st.s) ∧
      (isAuto ix = true → (∀ r, t.ptr r = (stepped st ix).ptr r))

/-- What the assembler's functions choose does what was written, by the meaning of the postbyte row or
the branch chosen: a constant offset holds the register plus the offset, the indirect one the pointer that
lies there, a PC-relative form the address written, from any place; a taken branch goes to its target, and
a long branch always reaches it. The functions are the model's (log 25; DEDUCED for `[0,R]`), no step uses
them, and the postbyte rows are constructors by log 13; they follow R105, R129, R131 and R174. -/
def Obligations.AssembledFormsReachTheirAddress : Prop :=
  ∀ st : State,
    (∀ r n, exec (postbyteRow (Assembler.constantOffset r n)) st = .next { st with temp := st.ptr r + n }) ∧
    (∀ r n, exec (postbyteRow (Assembler.constantOffsetIndirect r n)) st =
      andThen (readWord (st.ptr r + n) st) fun p => .next { p.2 with temp := p.1 }) ∧
    (∀ start len addr,
      st.pc = start + len +
          BitVec.ofNat 16 (Assembler.pcRelative start len addr).extraBytes →
        exec (postbyteRow (Assembler.pcRelative start len addr)) st = .next { st with temp := addr }) ∧
    (∀ start len addr,
      st.pc = start + len +
          BitVec.ofNat 16 (Assembler.pcRelativeIndirect start len addr).extraBytes →
        exec (postbyteRow (Assembler.pcRelativeIndirect start len addr)) st =
          andThen (readWord addr st) fun p => .next { p.2 with temp := p.1 }) ∧
    (∀ start target off, st.pc = start + 2#16 → Assembler.shortBranch start target = some off →
      (getFlag st.cc .z = true → exec (.beq off) st = .next { st with pc := target }) ∧
      (getFlag st.cc .z = false → getFlag st.cc .n = getFlag st.cc .v →
        exec (.bgt off) st = .next { st with pc := target })) ∧
    ∀ start target, st.pc = start + 4#16 →
      (getFlag st.cc .z = true →
        exec (.lbeq (Assembler.longBranch start target)) st = .next { st with pc := target }) ∧
      (getFlag st.cc .z = false → getFlag st.cc .n = getFlag st.cc .v →
        exec (.lbgt (Assembler.longBranch start target)) st = .next { st with pc := target })

/-! ## Loads, stores, LEAX -/

/-- LDA and LDB, every mode: the byte at the effective address, or the operand itself, goes to the
register; N and Z from it, V cleared; nothing else changes but the stepped pointer (R201, R202, R211). -/
def Obligations.LdaAndLdbLoadAByte : Prop :=
  ∀ st : State,
    (∀ v, (∃ t, exec (.ldaImm v) st = .next t ∧ t = { st with a := v, cc := t.cc, temp := t.temp } ∧
        MoveFlags v.msb (v == 0#8) st.cc t.cc) ∧
      (∃ t, exec (.ldbImm v) st = .next t ∧ t = { st with b := v, cc := t.cc, temp := t.temp } ∧
        MoveFlags v.msb (v == 0#8) st.cc t.cc)) ∧
    ∀ o : MemOperand, o.Ready st → st.backed (o.ea st) = true →
      (∃ t, exec (ldaOf o) st = .next t ∧
        t = { o.after st with a := st.peek (o.ea st), cc := t.cc } ∧
        MoveFlags (st.peek (o.ea st)).msb (st.peek (o.ea st) == 0#8) st.cc t.cc) ∧
      (∃ t, exec (ldbOf o) st = .next t ∧
        t = { o.after st with b := st.peek (o.ea st), cc := t.cc } ∧
        MoveFlags (st.peek (o.ea st)).msb (st.peek (o.ea st) == 0#8) st.cc t.cc)

/-- LDD, every mode: A takes bits 15:8 and B bits 7:0 of the 16-bit value (R22, R203, R211). -/
def Obligations.LddLoadsThePair : Prop :=
  ∀ st : State,
    (∀ v : Word, ∃ t, exec (.lddImm v) st = .next t ∧
      t = { st with a := v.extractLsb' 8 8, b := v.extractLsb' 0 8, cc := t.cc, temp := t.temp } ∧
      MoveFlags v.msb (v == 0#16) st.cc t.cc) ∧
    ∀ o : MemOperand, o.Ready st → BackedFrom st (o.ea st) 2 →
      ∃ t, exec (lddOf o) st = .next t ∧
        t = { o.after st with a := st.peek (o.ea st), b := st.peek (o.ea st + 1#16), cc := t.cc } ∧
        MoveFlags (st.peekWord (o.ea st)).msb (st.peekWord (o.ea st) == 0#16) st.cc t.cc

/-- LDX, LDY and LDU, every mode. The load is the last write: a pointer that is also the destination ends
with the value loaded (R182, R204 to R206, R211); loading U does not arm NMI. -/
def Obligations.PointerLoadsLoadAWord : Prop :=
  ∀ st : State,
    (∀ v : Word,
      (∃ t, exec (.ldxImm v) st = .next t ∧ t = { st with x := v, cc := t.cc, temp := t.temp } ∧
        MoveFlags v.msb (v == 0#16) st.cc t.cc) ∧
      (∃ t, exec (.ldyImm v) st = .next t ∧ t = { st with y := v, cc := t.cc, temp := t.temp } ∧
        MoveFlags v.msb (v == 0#16) st.cc t.cc) ∧
      (∃ t, exec (.lduImm v) st = .next t ∧ t = { st with u := v, cc := t.cc, temp := t.temp } ∧
        MoveFlags v.msb (v == 0#16) st.cc t.cc)) ∧
    ∀ o : MemOperand, o.Ready st → BackedFrom st (o.ea st) 2 →
      (∃ t, exec (ldxOf o) st = .next t ∧
        t = { o.after st with x := st.peekWord (o.ea st), cc := t.cc } ∧
        MoveFlags (st.peekWord (o.ea st)).msb (st.peekWord (o.ea st) == 0#16) st.cc t.cc) ∧
      (∃ t, exec (ldyOf o) st = .next t ∧
        t = { o.after st with y := st.peekWord (o.ea st), cc := t.cc } ∧
        MoveFlags (st.peekWord (o.ea st)).msb (st.peekWord (o.ea st) == 0#16) st.cc t.cc) ∧
      (∃ t, exec (lduOf o) st = .next t ∧
        t = { o.after st with u := st.peekWord (o.ea st), cc := t.cc } ∧
        MoveFlags (st.peekWord (o.ea st)).msb (st.peekWord (o.ea st) == 0#16) st.cc t.cc)

/-- The flags of every load and store, whatever memory answers: N and Z from the value loaded or stored,
V cleared, the other five unchanged (R211). -/
def Obligations.EveryLoadAndStoreSetsTheMoveFlags : Prop :=
  ∀ (i : Instr) (st t : State), exec i st = .next t →
    (∀ v, movedByte t i = some v → MoveFlags v.msb (v == 0#8) st.cc t.cc) ∧
    (∀ v, movedWord t i = some v → MoveFlags v.msb (v == 0#16) st.cc t.cc)

/-- STD stores A:B, STX and STU the pointer register as it stands after the addressing mode, through
every addressing mode: the state after is that after the addressing mode but for flags and memory; N and Z
follow the stored word; where both bytes are RAM they hold it, high byte first; every other byte is as it
was, and so is every device unless it is stored to (R182, R207, R208, R209, R211). -/
def Obligations.StdStxStuStoreAWord : Prop :=
  ∀ (st : State) (o : MemOperand), o.Ready st → MappedFrom st (o.ea st) 2 →
    ∀ (i : Instr) (v : Word), (i = stdOf o ∧ v = st.a ++ st.b) ∨ (i = stxOf o ∧ v = (o.after st).x) ∨
        (i = stuOf o ∧ v = (o.after st).u) →
      ∃ t, exec i st = .next t ∧
        t = { o.after st with mem := t.mem, cc := t.cc, devices := t.devices, draws := t.draws } ∧
        MoveFlags v.msb (v == 0#16) st.cc t.cc ∧
        SameMemoryOutside st t (o.ea st) 2 ∧ SameDevicesUnlessIn st t (o.ea st) 2 ∧
        (st.mem.wf = true → RamFrom st (o.ea st) 2 → t.peekWord (o.ea st) = v)

/-- The source's case: STX ,X++ stores the stepped X at the address X had before (R180, R181). -/
def Obligations.StxAutoIncrementStoresTheSteppedPointer : Prop :=
  ∀ st : State, st.mem.wf = true → RamFrom st st.x 2 →
    ∃ t, exec (.stxIdx (.inc2 .x)) st = .next t ∧ t.x = st.x + 2#16 ∧
      t.peekWord st.x = st.x + 2#16 ∧ SameMemoryOutside st t st.x 2

/-- LEAX: X takes the effective address, Z says whether it is zero, memory is not read at it; nothing
else changes but the stepped pointer (R182, R210). -/
def Obligations.LeaxLoadsTheAddress : Prop :=
  ∀ (st : State) (ix : Indexed), PointerBacked st ix →
    ∃ t, exec (.leax ix) st = .next t ∧
      t = { stepped st ix with
            temp := indexedAddress st ix, x := indexedAddress st ix, cc := t.cc } ∧
      ∀ g, getFlag t.cc g =
        if g = .z then decide (indexedAddress st ix = 0#16) else getFlag st.cc g

/-! ## Arithmetic -/

/-- ASL, every mode: the byte at the effective address doubled modulo 2^8; C its bit 7, N and Z of the
result, V its bits 7 and 6 unlike; E, F, I kept, H not spoken of; one byte stored, no other changed, the
pointer stepped once (R59, R232). -/
def Obligations.AslDoublesTheByteInMemory : Prop :=
  ∀ (st : State) (o : MemOperand), o.Ready st → st.backed (o.ea st) = true →
    ∃ t, exec (aslOf o) st = .next t ∧
      t = { o.after st with mem := t.mem, cc := t.cc, draws := t.draws } ∧
      SameMemoryOutside st t (o.ea st) 1 ∧
      (st.mem.wf = true → st.kindAt (o.ea st) = .ram →
        (t.peek (o.ea st)).toNat = 2 * (st.peek (o.ea st)).toNat % 256) ∧
      getFlag t.cc .c = (st.peek (o.ea st)).getLsbD 7 ∧
      getFlag t.cc .n = (st.peek (o.ea st)).getLsbD 6 ∧
      getFlag t.cc .z = decide (2 * (st.peek (o.ea st)).toNat % 256 = 0) ∧
      getFlag t.cc .v = ((st.peek (o.ea st)).getLsbD 7 ^^ (st.peek (o.ea st)).getLsbD 6) ∧
      (∀ g, g = Flag.e ∨ g = Flag.f ∨ g = Flag.i → getFlag t.cc g = getFlag st.cc g)

/-- ASRA: the signed value of A halved and rounded toward minus infinity; C the bit shifted out, N and Z
of the result, V and E, F, I kept, H not spoken of; nothing else changes (R233). -/
def Obligations.AsraHalvesTheSignedAccumulator : Prop :=
  ∀ st : State, ∃ t, exec .asra st = .next t ∧
    t = { st with a := t.a, cc := t.cc, draws := t.draws } ∧
    t.a.toInt = st.a.toInt.fdiv 2 ∧
    getFlag t.cc .c = decide (st.a.toNat % 2 = 1) ∧
    getFlag t.cc .n = decide (t.a.toInt < 0) ∧ getFlag t.cc .z = decide (t.a = 0#8) ∧
    ∀ g, g = Flag.v ∨ g = Flag.e ∨ g = Flag.f ∨ g = Flag.i → getFlag t.cc g = getFlag st.cc g

/-- ABX adds B unsigned and changes no flag; CLRB clears B with N = 0, Z = 1, V = 0, C = 0 and the other
flags kept; NOP changes nothing (R231, R234, R236). -/
def Obligations.AbxClrbAndNop : Prop :=
  ∀ st : State,
    (∃ t, exec .abx st = .next t ∧ t = { st with x := t.x } ∧
      t.x.toNat = (st.x.toNat + st.b.toNat) % 65536) ∧
    (∃ t, exec .clrb st = .next t ∧ t = { st with b := 0#8, cc := t.cc } ∧
      ∀ g, getFlag t.cc g =
        if g = .n ∨ g = .v ∨ g = .c then false else if g = .z then true else getFlag st.cc g) ∧
    exec .nop st = .next st

/-- DAA: A plus the correction of R235, its low eight bits; N and Z of the result, C kept set or set by
the carry out of the sum; H, E, F, I kept, V not spoken of; nothing else changes. -/
def Obligations.DaaAddsTheDecimalCorrection : Prop :=
  ∀ st : State, ∃ t, exec .daa st = .next t ∧
    t = { st with a := t.a, cc := t.cc, draws := t.draws } ∧
    let lsn := st.a.toNat % 16
    let msn := st.a.toNat / 16
    let cf := (if getFlag st.cc .h = true ∨ 9 < lsn then 6 else 0) +
      (if getFlag st.cc .c = true ∨ 9 < msn ∨ (8 < msn ∧ 9 < lsn) then 96 else 0)
    t.a.toNat = (st.a.toNat + cf) % 256 ∧
      getFlag t.cc .c = (getFlag st.cc .c || decide (256 ≤ st.a.toNat + cf)) ∧
      getFlag t.cc .n = t.a.getLsbD 7 ∧ getFlag t.cc .z = decide (t.a = 0#8) ∧
      ∀ g, g = Flag.h ∨ g = Flag.e ∨ g = Flag.f ∨ g = Flag.i → getFlag t.cc g = getFlag st.cc g

/-- DAA corrects A after an 8-bit addition of two packed decimal bytes: with A, C and H as the binary sum
of `10 p1 + p0` and `10 q1 + q0` in packed form leaves them, A becomes the packed decimal sum modulo
100 and C says whether the sum reached 100 (R235). -/
def Obligations.DaaCorrectsAPackedDecimalSum : Prop :=
  ∀ (st : State) (p1 p0 q1 q0 : Nat), p1 < 10 → p0 < 10 → q1 < 10 → q0 < 10 →
    st.a.toNat = (16 * p1 + p0 + (16 * q1 + q0)) % 256 →
    getFlag st.cc .h = decide (16 ≤ p0 + q0) →
    getFlag st.cc .c = decide (256 ≤ 16 * p1 + p0 + (16 * q1 + q0)) →
    ∃ t, exec .daa st = .next t ∧
      t.a.toNat = 16 * ((10 * p1 + p0 + (10 * q1 + q0)) / 10 % 10) + (p0 + q0) % 10 ∧
      getFlag t.cc .c = decide (100 ≤ 10 * p1 + p0 + (10 * q1 + q0))

/-! ## Transfers and stacks -/

/-- TFR of two registers of one width: the destination takes the source's value; every register that does
not share storage with it, the hidden state and memory are unchanged; S as destination arms NMI (R251,
R256, R318). -/
def Obligations.TfrCopiesTheSource : Prop :=
  ∀ (st : State) (r1 r2 : Reg), r1.isWide = r2.isWide →
    ∃ t, exec (.tfr r1 r2) st = .next t ∧ t.readReg r2 = st.readReg r1 ∧
      (∀ r, overlap r r2 = false → t.readReg r = st.readReg r) ∧
      t.nmiArmed = (st.nmiArmed || r2 == .s) ∧
      t.nmiPending = st.nmiPending ∧ t.runState = st.runState ∧ t.temp = st.temp ∧
      t.mem = st.mem ∧ t.map = st.map ∧ t.devices = st.devices ∧ t.env = st.env ∧ t.draws = st.draws

/-- EXG of two registers of one width: each takes the other's value; every register that shares storage
with neither, the hidden state and memory are unchanged; S in the pair arms NMI (R251, R257, R318). -/
def Obligations.ExgSwapsTheTwo : Prop :=
  ∀ (st : State) (r1 r2 : Reg), r1.isWide = r2.isWide →
    ∃ t, exec (.exg r1 r2) st = .next t ∧ t.readReg r2 = st.readReg r1 ∧
      t.readReg r1 = st.readReg r2 ∧
      (∀ r, overlap r r1 = false → overlap r r2 = false → t.readReg r = st.readReg r) ∧
      t.nmiArmed = (st.nmiArmed || r1 == .s || r2 == .s) ∧
      t.nmiPending = st.nmiPending ∧ t.runState = st.runState ∧ t.temp = st.temp ∧
      t.mem = st.mem ∧ t.map = st.map ∧ t.devices = st.devices ∧ t.env = st.env ∧ t.draws = st.draws

/-- PSHS of any list: S falls by the bytes of the list and no other register changes; the listed
registers lie above the new S, CC lowest and PC highest, and no other byte changes, nor a device that the
stack is not in (R253, R254, R258). -/
def Obligations.PshsStacksTheListedRegisters : Prop :=
  ∀ (st : State) (list : Byte),
    MappedFrom st (st.s - BitVec.ofNat 16 (listBytes list)) (listBytes list) →
    ∃ t, exec (.pshs list) st = .next t ∧
      t = { st with s := st.s - BitVec.ofNat 16 (listBytes list), mem := t.mem,
                    devices := t.devices, draws := t.draws } ∧
      SameMemoryOutside st t (st.s - BitVec.ofNat 16 (listBytes list)) (listBytes list) ∧
      SameDevicesUnlessIn st t (st.s - BitVec.ofNat 16 (listBytes list)) (listBytes list) ∧
      (st.mem.wf = true →
        RamFrom st (st.s - BitVec.ofNat 16 (listBytes list)) (listBytes list) →
        ListStacked st t (st.s - BitVec.ofNat 16 (listBytes list)) list)

/-- PULU of any list: each listed register takes its bytes from the U stack, U rises by the bytes of the
list, S in the list arms NMI, PC in the list is a jump; no memory and no other register changes (R251,
R253, R254, R259). -/
def Obligations.PuluLoadsTheListedRegisters : Prop :=
  ∀ (st : State) (list : Byte), BackedFrom st st.u (listBytes list) →
    exec (.pulu list) st = .next
      { st with
        cc := if list.getLsbD 0 then st.peek (memberAt st.u list 0) else st.cc
        a := if list.getLsbD 1 then st.peek (memberAt st.u list 1) else st.a
        b := if list.getLsbD 2 then st.peek (memberAt st.u list 2) else st.b
        dp := if list.getLsbD 3 then st.peek (memberAt st.u list 3) else st.dp
        x := if list.getLsbD 4 then st.peekWord (memberAt st.u list 4) else st.x
        y := if list.getLsbD 5 then st.peekWord (memberAt st.u list 5) else st.y
        s := if list.getLsbD 6 then st.peekWord (memberAt st.u list 6) else st.s
        nmiArmed := st.nmiArmed || list.getLsbD 6
        pc := if list.getLsbD 7 then st.peekWord (memberAt st.u list 7) else st.pc
        u := st.u + BitVec.ofNat 16 (listBytes list) }

/-- A pull of the same list undoes a push: from any state whose memory is as PSHS left it and whose U is
the S it left, PULU of the same list completes, gives back every listed register, leaves the others, and
brings U to where S was (R253, R260). Bit 6 gives S what U held: each names the other stack's pointer. -/
def Obligations.PullOfTheSameListUndoesThePush : Prop :=
  ∀ (st t w : State) (list : Byte), st.mem.wf = true →
    RamFrom st (st.s - BitVec.ofNat 16 (listBytes list)) (listBytes list) →
    exec (.pshs list) st = .next t → w.mem = t.mem → w.map = t.map → w.u = t.s →
    exec (.pulu list) w = .next
      { w with
        cc := if list.getLsbD 0 then st.cc else w.cc
        a := if list.getLsbD 1 then st.a else w.a
        b := if list.getLsbD 2 then st.b else w.b
        dp := if list.getLsbD 3 then st.dp else w.dp
        x := if list.getLsbD 4 then st.x else w.x
        y := if list.getLsbD 5 then st.y else w.y
        s := if list.getLsbD 6 then st.u else w.s
        nmiArmed := w.nmiArmed || list.getLsbD 6
        pc := if list.getLsbD 7 then st.pc else w.pc
        u := st.s }

/-! ## Branches -/

/-- The four branches: BEQ and LBEQ are taken when Z = 1, BGT and LBGT when Z = 0 and N = V; taken, PC
takes PC plus the signed offset modulo 2^16, not taken, nothing changes; nothing but PC ever changes
(R129, R270, R272). -/
def Obligations.BranchesTestTheirCondition : Prop :=
  ∀ st : State,
    (∀ off : Byte, exec (.beq off) st = .next
      { st with pc := if st.cc.getLsbD 2 = true then st.pc + off.signExtend 16 else st.pc }) ∧
    (∀ off : Word, exec (.lbeq off) st = .next
      { st with pc := if st.cc.getLsbD 2 = true then st.pc + off else st.pc }) ∧
    (∀ off : Byte, exec (.bgt off) st = .next
      { st with pc := if st.cc.getLsbD 2 = false ∧ st.cc.getLsbD 3 = st.cc.getLsbD 1
                      then st.pc + off.signExtend 16 else st.pc }) ∧
    (∀ off : Word, exec (.lbgt off) st = .next
      { st with pc := if st.cc.getLsbD 2 = false ∧ st.cc.getLsbD 3 = st.cc.getLsbD 1
                      then st.pc + off else st.pc })

/-! ## Exceptions, waits, reset -/

/-- Stacking the entire state: twelve bytes on the S stack, S twelve lower, the frame of R322; and it is
what PSHS with postbyte $FF does (R322). -/
def Obligations.StackingTheEntireState : Prop :=
  ∀ st : State,
    stackAll st = exec (.pshs 0xFF#8) st ∧
    (MappedFrom st (st.s - 12#16) 12 →
      ∃ t, stackAll st = .next t ∧
        t = { st with s := st.s - 12#16, mem := t.mem, devices := t.devices, draws := t.draws } ∧
        FrameStacked st t (entireFrame st st.cc) ∧ SameDevicesUnlessIn st t (st.s - 12#16) 12)

/-- The three software interrupts: E set, twelve bytes stacked with that CC, then SWI alone sets I and F,
and PC is the word at the vector as memory stands after the stacking; nothing else changes (R291 to
R293, R312, R322). -/
def Obligations.SoftwareInterruptsEnterTheirHandlers : Prop :=
  ∀ (st : State) (i : Instr) (vector : Word) (masks : Byte),
    (i = .swi ∧ vector = 0xFFFA#16 ∧ masks = 0x50#8) ∨
      (i = .swi2 ∧ vector = 0xFFF4#16 ∧ masks = 0x00#8) ∨
      (i = .swi3 ∧ vector = 0xFFF2#16 ∧ masks = 0x00#8) →
    MappedFrom st (st.s - 12#16) 12 → BackedFrom st vector 2 →
    ∃ t, exec i st = .next t ∧
      t = { st with s := st.s - 12#16, cc := st.cc ||| 0x80#8 ||| masks,
                    pc := t.peekWord vector, mem := t.mem, devices := t.devices, draws := t.draws } ∧
      FrameStacked st t (entireFrame st (st.cc ||| 0x80#8)) ∧
      SameDevicesUnlessIn st t (st.s - 12#16) 12

/-- NMI, when armed and latched by now, is entered before anything else; IRQ, when asserted and not
masked, is entered when neither NMI nor FIRQ is. Both stack the entire state with E = 1; NMI sets F and I
and clears its latch, IRQ sets I and leaves F (R319, R320, R324, R326). -/
def Obligations.NmiAndIrqEntry : Prop :=
  ∀ st : State, st.runState = .running → st.input.reset = false → MappedFrom st (st.s - 12#16) 12 →
    (NmiAtStep st → BackedFrom st 0xFFFC#16 2 →
      ∃ t, step st = .next t ∧
        t = { st with env := st.env.tail, nmiPending := false, s := st.s - 12#16,
                      cc := st.cc ||| 0xD0#8, pc := t.peekWord 0xFFFC#16, mem := t.mem,
                      devices := t.devices, draws := t.draws } ∧
        FrameStacked st t (entireFrame st (st.cc ||| 0x80#8)) ∧
        SameDevicesUnlessIn st t (st.s - 12#16) 12) ∧
    (¬ NmiAtStep st → ¬ FirqAtStep st → IrqAtStep st → BackedFrom st 0xFFF8#16 2 →
      ∃ t, step st = .next t ∧
        t = { st with env := st.env.tail, s := st.s - 12#16, cc := st.cc ||| 0x90#8,
                      pc := t.peekWord 0xFFF8#16, mem := t.mem,
                      devices := t.devices, draws := t.draws } ∧
        FrameStacked st t (entireFrame st (st.cc ||| 0x80#8)) ∧
        SameDevicesUnlessIn st t (st.s - 12#16) 12)

/-- FIRQ, when asserted and not masked and no NMI is taken, is entered whatever IRQ does: E = 0, PC and
CC alone are stacked, F and I are set (R319, R320, R323, R325). -/
def Obligations.FirqEntry : Prop :=
  ∀ st : State, st.runState = .running → st.input.reset = false → ¬ NmiAtStep st → FirqAtStep st →
    MappedFrom st (st.s - 3#16) 3 → BackedFrom st 0xFFF6#16 2 →
    ∃ t, step st = .next t ∧
      t = { st with env := st.env.tail, s := st.s - 3#16, cc := (st.cc &&& 0x7F#8) ||| 0x50#8,
                    pc := t.peekWord 0xFFF6#16, mem := t.mem,
                    devices := t.devices, draws := t.draws } ∧
      FrameStacked st t (fastFrame st (st.cc &&& 0x7F#8)) ∧ SameDevicesUnlessIn st t (st.s - 3#16) 3

/-- RTI pulls CC, then all the registers if the E just pulled is 1, then PC: twelve bytes or three. It
touches no memory and no hidden state (R294, R328). -/
def Obligations.RtiPullsWhatTheStackedESays : Prop :=
  ∀ st : State,
    ((st.peek st.s).getLsbD 7 = true → BackedFrom st st.s 12 →
      exec .rti st = .next
        { st with
          cc := st.peek st.s, a := st.peek (st.s + 1#16), b := st.peek (st.s + 2#16),
          dp := st.peek (st.s + 3#16), x := st.peekWord (st.s + 4#16),
          y := st.peekWord (st.s + 6#16), u := st.peekWord (st.s + 8#16),
          pc := st.peekWord (st.s + 10#16), s := st.s + 12#16 }) ∧
    ((st.peek st.s).getLsbD 7 = false → BackedFrom st st.s 3 →
      exec .rti st = .next
        { st with
          cc := st.peek st.s, pc := st.peekWord (st.s + 1#16), s := st.s + 3#16 })

/-- RTI directly after any entry, hardware or software, gives the interrupted state back: every register
and PC, CC with E telling the kind of frame, S where it was; what differs is the memory below S, a
cleared NMI latch, and what a vector in a device or an open bus changed (R291, R322 to R328). -/
def Obligations.RtiUndoesEveryEntry : Prop :=
  ∀ (ev : Event) (st t : State), st.mem.wf = true →
    RamFrom st (st.s - (if ev = .firq then 3#16 else 12#16)) (if ev = .firq then 3 else 12) →
    enterException ev st = .next t →
    exec .rti t = .next
      { st with
        cc := if ev = .firq then st.cc &&& 0x7F#8 else st.cc ||| 0x80#8
        mem := t.mem, nmiPending := t.nmiPending, devices := t.devices, draws := t.draws }

/-- CWAI: CC is ANDed with the mask and E set, the entire state is stacked with that CC, and the wait
begins; nothing else changes (R295). -/
def Obligations.CwaiStacksAndWaits : Prop :=
  ∀ (st : State) (imm : Byte), MappedFrom st (st.s - 12#16) 12 →
    ∃ t, exec (.cwai imm) st = .next t ∧
      t = { st with s := st.s - 12#16, cc := (st.cc &&& imm) ||| 0x80#8,
                    runState := .cwaiWait, mem := t.mem, devices := t.devices, draws := t.draws } ∧
      FrameStacked st t (entireFrame st ((st.cc &&& imm) ||| 0x80#8)) ∧
      SameDevicesUnlessIn st t (st.s - 12#16) 12

/-- A step in CwaiWait: an interrupt that is not masked, NMI before FIRQ before IRQ, sets its masks and
goes to its handler without stacking again; otherwise the wait goes on (R295, R297, R320). -/
def Obligations.CwaiWaitEndsOnAnUnmaskedInterrupt : Prop :=
  ∀ st : State, st.runState = .cwaiWait → st.input.reset = false →
    (NmiAtStep st → BackedFrom st 0xFFFC#16 2 →
      step st = .next { st with env := st.env.tail, nmiPending := false, cc := st.cc ||| 0x50#8,
                                pc := st.peekWord 0xFFFC#16, runState := .running }) ∧
    (¬ NmiAtStep st → FirqAtStep st → BackedFrom st 0xFFF6#16 2 →
      step st = .next { st with env := st.env.tail, cc := st.cc ||| 0x50#8,
                                pc := st.peekWord 0xFFF6#16, runState := .running }) ∧
    (¬ NmiAtStep st → ¬ FirqAtStep st → IrqAtStep st → BackedFrom st 0xFFF8#16 2 →
      step st = .next { st with env := st.env.tail, cc := st.cc ||| 0x10#8,
                                pc := st.peekWord 0xFFF8#16, runState := .running }) ∧
    (¬ NmiAtStep st → ¬ FirqAtStep st → ¬ IrqAtStep st →
      step st = .next { st with env := st.env.tail })

/-- SYNC begins the wait and stacks nothing. A step in SyncWait runs on as soon as any interrupt input is
asserted, masked or not, an NMI only if armed; otherwise the wait goes on. Nothing else changes but the
NMI latch (R296, R297, R317). -/
def Obligations.SyncWaitsForAnyInput : Prop :=
  (∀ st : State, exec .sync st = .next { st with runState := .syncWait }) ∧
  ∀ st : State, st.runState = .syncWait → st.input.reset = false →
    ((NmiAtStep st ∨ st.input.firq = true ∨ st.input.irq = true) →
      step st = .next { st with env := st.env.tail, nmiPending := latchAfter st,
                                runState := .running }) ∧
    (¬ NmiAtStep st → st.input.firq = false → st.input.irq = false →
      step st = .next { st with env := st.env.tail })

/-- RESET at a step boundary, from any run state: DP = $00, F = I = 1, NMI disarmed and its latch clear,
Running, PC the word at $FFFE; memory is kept and nothing is stacked. The registers it leaves
unspecified are not spoken of (R351, R352). -/
def Obligations.ResetStepSetsWhatTheSpecGives : Prop :=
  ∀ st : State, st.input.reset = true → BackedFrom st 0xFFFE#16 2 →
    ∃ t, step st = .next t ∧ t.dp = 0x00#8 ∧ getFlag t.cc .f = true ∧ getFlag t.cc .i = true ∧
      t.nmiArmed = false ∧ t.nmiPending = false ∧ t.runState = .running ∧
      t.pc = st.peekWord 0xFFFE#16 ∧ t.mem = st.mem ∧ t.map = st.map ∧ t.env = st.env.tail

/-- An NMI edge in a step without RESET is latched while NMI is armed and dropped while it is not: the
state the step goes on from differs from the one before in the latch and the used-up input only; in
SyncWait, where an NMI is not taken at once, the step ends the wait with the latch set; and while NMI is not
armed a step, from any run state, is the step without the edge (R296, R317, R318). -/
def Obligations.NmiEdgeIsLatchedOnlyWhileArmed : Prop :=
  ∀ st : State, st.atFetch = { st with env := st.env.tail, nmiPending := latchAfter st } ∧
    (st.nmiArmed = true → st.input.nmiEdge = true → st.runState = .syncWait → st.input.reset = false →
      step st = .next { st with env := st.env.tail, nmiPending := true, runState := .running }) ∧
    (st.nmiArmed = false →
      step st = step { st with env := { st.input with nmiEdge := false } :: st.env.tail }) ∧
    (st.nmiArmed = false → st.runState = .syncWait → st.input.reset = false →
      st.input.firq = false → st.input.irq = false → step st = .next { st with env := st.env.tail })

/-- The source's worked example: with `A6 98 10` (LDA [$10,X]) at $0100, X = $F000, $F1 at $F010, $50 at
$F011 and $AA at $F150, one step loads $AA, leaves X, and goes to $0103 (R177). A sanity statement on one
memory, whatever the other registers and flags hold. -/
def Obligations.WorkedExampleOfIndexedIndirect : Prop :=
  ∀ a b dp cc : Byte, ∀ y u s : Word,
    ∃ t, step { State.reset with
        a := a, b := b, dp := dp, cc := cc, x := 0xF000#16, y := y, u := u, s := s, pc := 0x0100#16,
        mem := [(0x0100, 0xA6#8), (0x0101, 0x98#8), (0x0102, 0x10#8), (0xF010, 0xF1#8), (0xF011, 0x50#8),
          (0xF150, 0xAA#8)] } = .next t ∧
      t.a = 0xAA#8 ∧ t.x = 0xF000#16 ∧ t.pc = 0x0103#16
end

