-- ==== Sys2Proof/Tests/Slice0.lean ====
section
/-! SUPPORT. The model's own tests: the checks of WellFormed, every constructor's decoding on words written
out from spec/30_encoding.md R99 (opcodes) and R90 (postbytes), single steps with the values of
spec/95_test_vectors.md, and a state and operands that meet the hypotheses of each obligation. -/

namespace Sys2Proof.Tests

open Sys2Proof Sys2Proof.Machine Sys2Proof.Statements

/-! ## Helpers -/

/-- The outcome is a next state of which `p` holds. -/
def holds (o : Outcome State) (p : State → Bool) : Bool :=
  match o with
  | .next t => p t
  | .fault _ | .refused _ => false

/-- The fault an outcome is, if it is one. -/
def faultOf (o : Outcome State) : Option Fault :=
  match o with
  | .fault r => some r
  | .next _ | .refused _ => none

/-- The refusal an outcome is, if it is one. -/
def refusalOf (o : Outcome State) : Option Refusal :=
  match o with
  | .refused r => some r
  | .next _ | .fault _ => none

theorem next_of_holds {o : Outcome State} (h : holds o (fun _ => true) = true) : ∃ t, o = .next t := by
  cases o with
  | next t => exact ⟨t, rfl⟩
  | fault r => cases h
  | refused r => cases h

/-- The state of spec/95_test_vectors.md 3.5 at $4000, with its vectors. -/
def board : State :=
  { State.reset with
    a := 0x11#8, b := 0x22#8, x := 0x1234#16, y := 0x5678#16, u := 0x9ABC#16, s := 0x8000#16
    pc := 0x4000#16
    mem := [(0xFFF2, 0x62#8), (0xFFF4, 0x61#8), (0xFFF6, 0x63#8), (0xFFF8, 0x64#8), (0xFFFA, 0x60#8),
      (0xFFFC, 0x65#8), (0xFFFE, 0xC0#8)] }

/-- A state with bytes at its PC. -/
def atPc (st : State) (bytes : List Byte) : State := st.pokeBytes st.pc bytes

/-- A state with bytes at an address. -/
def cells (st : State) (addr : Word) (bytes : List Byte) : State := st.pokeBytes addr bytes

/-- After one step on the bytes at PC, `p` holds. -/
def ran (st : State) (bytes : List Byte) (p : State → Bool) : Bool := holds (step (atPc st bytes)) p

/-! ## WellFormed: one ill-formed term for each check -/

/-- TFR of registers of two widths. -/
theorem test_wellFormed_refuses_tfr_widths : Instr.wellFormed (.tfr .a .x) = false := by decide

/-- EXG of registers of two widths. -/
theorem test_wellFormed_refuses_exg_widths : Instr.wellFormed (.exg .a .d) = false := by decide

/-- A bare postbyte. -/
theorem test_wellFormed_refuses_bare_postbyte : Instr.wellFormed (.pbZero .x) = false := by decide

theorem test_wellFormed_accepts :
    Instr.wellFormed (.tfr .x .s) = true ∧ Instr.wellFormed (.ldyIdx (.off16 .x 300#16)) = true := by
  decide

/-! ## Decoding: a word of every opcode row (R99) -/

/-- The ten inherent opcodes. -/
theorem test_decode_inherent :
    decode [0x12#8] = .ok (.nop, []) ∧
    decode [0x13#8] = .ok (.sync, []) ∧
    decode [0x19#8] = .ok (.daa, []) ∧
    decode [0x3A#8] = .ok (.abx, []) ∧
    decode [0x3B#8] = .ok (.rti, []) ∧
    decode [0x3F#8] = .ok (.swi, []) ∧
    decode [0x10#8, 0x3F#8] = .ok (.swi2, []) ∧
    decode [0x11#8, 0x3F#8] = .ok (.swi3, []) ∧
    decode [0x47#8] = .ok (.asra, []) ∧
    decode [0x5F#8] = .ok (.clrb, []) := by decide

/-- The seven immediate opcodes; a 16-bit operand is high byte first (R83). -/
theorem test_decode_immediate :
    decode [0x3C#8, 0xEF#8] = .ok (.cwai 0xEF#8, []) ∧
    decode [0x86#8, 0x20#8] = .ok (.ldaImm 0x20#8, []) ∧
    decode [0xC6#8, 0x80#8] = .ok (.ldbImm 0x80#8, []) ∧
    decode [0xCC#8, 0x05#8, 0xE7#8] = .ok (.lddImm 0x05E7#16, []) ∧
    decode [0x8E#8, 0xF0#8, 0x00#8] = .ok (.ldxImm 0xF000#16, []) ∧
    decode [0x10#8, 0x8E#8, 0x12#8, 0x34#8] = .ok (.ldyImm 0x1234#16, []) ∧
    decode [0xCE#8, 0x00#8, 0x01#8] = .ok (.lduImm 0x0001#16, []) := by decide

/-- The ten direct opcodes. -/
theorem test_decode_direct :
    decode [0x08#8, 0x20#8] = .ok (.aslDir 0x20#8, []) ∧
    decode [0x96#8, 0x30#8] = .ok (.ldaDir 0x30#8, []) ∧
    decode [0xD6#8, 0x30#8] = .ok (.ldbDir 0x30#8, []) ∧
    decode [0xDC#8, 0xFF#8] = .ok (.lddDir 0xFF#8, []) ∧
    decode [0x9E#8, 0x10#8] = .ok (.ldxDir 0x10#8, []) ∧
    decode [0x10#8, 0x9E#8, 0x11#8] = .ok (.ldyDir 0x11#8, []) ∧
    decode [0xDE#8, 0x12#8] = .ok (.lduDir 0x12#8, []) ∧
    decode [0xDD#8, 0x10#8] = .ok (.stdDir 0x10#8, []) ∧
    decode [0x9F#8, 0x13#8] = .ok (.stxDir 0x13#8, []) ∧
    decode [0xDF#8, 0x14#8] = .ok (.stuDir 0x14#8, []) := by decide

/-- The indexed loads and LEAX. -/
theorem test_decode_indexed_loads :
    decode [0xA6#8, 0x88#8, 0x80#8] = .ok (.ldaIdx (.off8 .x 0x80#8), []) ∧
    decode [0xE6#8, 0xA2#8] = .ok (.ldbIdx (.dec1 .y), []) ∧
    decode [0xEC#8, 0x91#8] = .ok (.lddIdx (.inc2Ind .x), []) ∧
    decode [0xAE#8, 0xE3#8] = .ok (.ldxIdx (.dec2 .s), []) ∧
    decode [0x10#8, 0xAE#8, 0x89#8, 0x01#8, 0x2C#8] = .ok (.ldyIdx (.off16 .x 300#16), []) ∧
    decode [0xEE#8, 0x9D#8, 0x10#8, 0x00#8] = .ok (.lduIdx (.pcr16Ind 0x1000#16), []) ∧
    decode [0x30#8, 0x4F#8] = .ok (.leax (.off5 .u 15#5), []) := by decide

/-- The indexed stores and ASL. -/
theorem test_decode_indexed_stores :
    decode [0x68#8, 0x9F#8, 0x41#8, 0x00#8] = .ok (.aslIdx (.extInd 0x4100#16), []) ∧
    decode [0xED#8, 0xA1#8] = .ok (.stdIdx (.inc2 .y), []) ∧
    decode [0xAF#8, 0x81#8] = .ok (.stxIdx (.inc2 .x), []) ∧
    decode [0xEF#8, 0xC1#8] = .ok (.stuIdx (.inc2 .u), []) := by decide

/-- The ten extended opcodes. -/
theorem test_decode_extended :
    decode [0x78#8, 0x41#8, 0x00#8] = .ok (.aslExt 0x4100#16, []) ∧
    decode [0xB6#8, 0xE0#8, 0x00#8] = .ok (.ldaExt 0xE000#16, []) ∧
    decode [0xF6#8, 0x12#8, 0x34#8] = .ok (.ldbExt 0x1234#16, []) ∧
    decode [0xFC#8, 0x20#8, 0x00#8] = .ok (.lddExt 0x2000#16, []) ∧
    decode [0xBE#8, 0x12#8, 0x35#8] = .ok (.ldxExt 0x1235#16, []) ∧
    decode [0x10#8, 0xBE#8, 0x12#8, 0x36#8] = .ok (.ldyExt 0x1236#16, []) ∧
    decode [0xFE#8, 0x12#8, 0x37#8] = .ok (.lduExt 0x1237#16, []) ∧
    decode [0xFD#8, 0x12#8, 0x38#8] = .ok (.stdExt 0x1238#16, []) ∧
    decode [0xBF#8, 0x20#8, 0x00#8] = .ok (.stxExt 0x2000#16, []) ∧
    decode [0xFF#8, 0x12#8, 0x39#8] = .ok (.stuExt 0x1239#16, []) := by decide

/-- The four register opcodes. -/
theorem test_decode_register :
    decode [0x1E#8, 0x89#8] = .ok (.exg .a .b, []) ∧
    decode [0x1F#8, 0x12#8] = .ok (.tfr .x .y, []) ∧
    decode [0x34#8, 0x36#8] = .ok (.pshs 0b00110110#8, []) ∧
    decode [0x37#8, 0x36#8] = .ok (.pulu 0b00110110#8, []) := by decide

/-- The four branch opcodes. -/
theorem test_decode_relative :
    decode [0x27#8, 0xF5#8] = .ok (.beq 0xF5#8, []) ∧
    decode [0x2E#8, 0x04#8] = .ok (.bgt 0x04#8, []) ∧
    decode [0x10#8, 0x27#8, 0x01#8, 0x00#8] = .ok (.lbeq 0x0100#16, []) ∧
    decode [0x10#8, 0x2E#8, 0xFF#8, 0xF8#8] = .ok (.lbgt 0xFFF8#16, []) := by decide

/-- The twelve register codes of TFR and EXG that name no pair are refused; the ten that do are read (R95). -/
theorem test_decode_register_codes :
    (List.range 16).map (fun n => (Reg.ofCode (BitVec.ofNat 4 n))) =
      [some .d, some .x, some .y, some .u, some .s, some .pc, none, none, some .a, some .b, some .cc,
        some .dp, none, none, none, none] := by decide

/-! ## Decoding: a postbyte of every row of Table 2 (R90), bits written out -/

/-- Rows `pbZero`, `pbZeroInd`, `pbOff5`, `pbOff8`, `pbOff8Ind`, `pbOff16`, `pbOff16Ind`. -/
theorem test_postbyte_constant_offset :
    decodeIndexed [0b10000100#8] = .ok (.zero .x, []) ∧
    decodeIndexed [0b10110100#8] = .ok (.zeroInd .y, []) ∧
    decodeIndexed [0b00110000#8] = .ok (.off5 .y 0b10000#5, []) ∧
    decodeIndexed [0b11001000#8, 0x80#8] = .ok (.off8 .u 0x80#8, []) ∧
    decodeIndexed [0b11111000#8, 0x0A#8] = .ok (.off8Ind .s 0x0A#8, []) ∧
    decodeIndexed [0b10001001#8, 0x01#8, 0x2C#8] = .ok (.off16 .x 0x012C#16, []) ∧
    decodeIndexed [0b10111001#8, 0xFF#8, 0xFE#8] = .ok (.off16Ind .y 0xFFFE#16, []) := by decide

/-- Rows `pbAccA`, `pbAccAInd`, `pbAccB`, `pbAccBInd`, `pbAccD`, `pbAccDInd`. -/
theorem test_postbyte_accumulator_offset :
    decodeIndexed [0b10000110#8] = .ok (.accA .x, []) ∧
    decodeIndexed [0b10110110#8] = .ok (.accAInd .y, []) ∧
    decodeIndexed [0b11000101#8] = .ok (.accB .u, []) ∧
    decodeIndexed [0b11110101#8] = .ok (.accBInd .s, []) ∧
    decodeIndexed [0b10101011#8] = .ok (.accD .y, []) ∧
    decodeIndexed [0b10011011#8] = .ok (.accDInd .x, []) := by decide

/-- Rows `pbInc1`, `pbInc2`, `pbInc2Ind`, `pbDec1`, `pbDec2`, `pbDec2Ind`. -/
theorem test_postbyte_auto :
    decodeIndexed [0b10000000#8] = .ok (.inc1 .x, []) ∧
    decodeIndexed [0b10100001#8] = .ok (.inc2 .y, []) ∧
    decodeIndexed [0b11010001#8] = .ok (.inc2Ind .u, []) ∧
    decodeIndexed [0b11100010#8] = .ok (.dec1 .s, []) ∧
    decodeIndexed [0b10000011#8] = .ok (.dec2 .x, []) ∧
    decodeIndexed [0b10110011#8] = .ok (.dec2Ind .y, []) := by decide

/-- Rows `pbPcr8`, `pbPcr8Ind`, `pbPcr16`, `pbPcr16Ind`, `pbExtInd`; bits 6:5 do not matter (R93). -/
theorem test_postbyte_pc_and_extended :
    decodeIndexed [0b10001100#8, 0x10#8] = .ok (.pcr8 0x10#8, []) ∧
    decodeIndexed [0b11101100#8, 0x10#8] = .ok (.pcr8 0x10#8, []) ∧
    decodeIndexed [0b10011100#8, 0xFE#8] = .ok (.pcr8Ind 0xFE#8, []) ∧
    decodeIndexed [0b10001101#8, 0xFF#8, 0xFC#8] = .ok (.pcr16 0xFFFC#16, []) ∧
    decodeIndexed [0b10011101#8, 0x10#8, 0x00#8] = .ok (.pcr16Ind 0x1000#16, []) ∧
    decodeIndexed [0b10011111#8, 0xFF#8, 0xFE#8] = .ok (.extInd 0xFFFE#16, []) ∧
    decodeIndexed [0b11111111#8, 0xFF#8, 0xFE#8] = .ok (.extInd 0xFFFE#16, []) := by decide

/-- What the decoder refuses, by name (R94, R95, R103), and what it still waits for (R82). -/
theorem test_decode_refuses :
    decode [0xA6#8, 0x90#8] = .error (.illegalPostbyte 0x90#8) ∧
    decode [0x10#8, 0xAE#8, 0x8F#8, 0x12#8, 0x34#8] = .error (.illegalPostbyte 0x8F#8) ∧
    decode [0x1F#8, 0x81#8] = .error (.illegalRegisterCode 0x81#8) ∧
    decode [0x1E#8, 0x61#8] = .error (.illegalRegisterCode 0x61#8) ∧
    decode [0x10#8, 0x10#8] = .error (.unknownOpcode [0x10#8, 0x10#8]) ∧
    decode [0x11#8, 0x10#8] = .error (.unknownOpcode [0x11#8, 0x10#8]) ∧
    decode [0x4F#8] = .error (.unknownOpcode [0x4F#8]) ∧
    decode [0x10#8, 0xAE#8, 0x89#8, 0x01#8] = .error .truncated := by decide

/-- Table 2's `+#` column and `+~` column at three rows (R90). -/
theorem test_table2_adders :
    [Indexed.off5 .x 0, .off16Ind .x 0, .pcr16Ind 0].map (fun ix => (ix.extraBytes, ix.extraCycles)) =
      [(0, 1), (2, 7), (2, 8)] := by decide

/-- Table words, bit 0 the least significant bit of the first byte: $10 $3F is SWI2, $1F then zeros is
TFR D,D. -/
theorem test_table_words :
    decodeTableWord 16 0x3F10 = some .swi2 ∧ decodeTableWord 8 0x1F = some (.tfr .d .d) ∧
      decodeTableWord 8 0x4F = none := by decide

/-- From reset, the placed word is the instruction the next step runs: LDA #$20. -/
theorem test_withFetchWord :
    holds (step (State.reset.withFetchWord 16 0x2086)) (fun t => t.a == 0x20#8 && t.pc == 2#16) = true := by
  decide

/-! ## Single steps (values of spec/95_test_vectors.md) -/

/-- The source's worked example, 1.1. -/
theorem test_lda_indexed_indirect :
    ran (cells (cells { board with x := 0xF000#16, pc := 0x0100#16 } 0xF010#16 [0xF1#8,
        0x50#8]) 0xF150#16 [0xAA#8])
      [0xA6#8, 0x98#8, 0x10#8] (fun t =>
      t.a == 0xAA#8 && t.x == 0xF000#16 && t.pc == 0x0103#16 && t.cc == 0x58#8) = true := by decide

/-- 2.3: N set, Z and V cleared, C kept. -/
theorem test_lda_imm_flags :
    ran { board with cc := 0x07#8 } [0x86#8, 0x80#8] (fun t =>
      t.a == 0x80#8 && t.cc == 0x09#8) = true := by decide

/-- 2.3: DP supplies the page. -/
theorem test_ldb_direct :
    ran (cells { board with dp := 0x10#8 } 0x1030#16 [0x7F#8]) [0xD6#8, 0x30#8] (fun t =>
      t.b == 0x7F#8 && t.a == 0x11#8 && t.pc == 0x4002#16) = true := by decide

/-- 2.1: ,-Y wraps below zero. -/
theorem test_ldb_predecrement :
    ran (cells { board with y := 0x0000#16 } 0xFFFF#16 [0x80#8]) [0xE6#8, 0xA2#8] (fun t =>
      t.b == 0x80#8 && t.y == 0xFFFF#16 && t.flag .n) = true := by decide

/-- 2.3: the second byte of $FFFF is at $0000. -/
theorem test_ldd_wraps :
    ran (cells (cells board 0xFFFF#16 [0x12#8]) 0x0000#16 [0x34#8]) [0xFC#8, 0xFF#8, 0xFF#8] (fun t =>
      t.a == 0x12#8 && t.b == 0x34#8) = true := by decide

/-- 2.1. -/
theorem test_ldd_inc2_indirect :
    ran (cells (cells { board with x := 0x2000#16 } 0x2000#16 [0x30#8, 0x00#8]) 0x3000#16 [0xBE#8, 0xEF#8])
      [0xEC#8, 0x91#8] (fun t =>
      t.d == 0xBEEF#16 && t.x == 0x2002#16 && t.flag .n) = true := by decide

/-- 2.2: the load is the last write. -/
theorem test_ldx_same_pointer :
    ran (cells { board with x := 0x2000#16 } 0x2000#16 [0x56#8, 0x78#8]) [0xAE#8, 0x81#8] (fun t =>
      t.x == 0x5678#16) = true := by decide

/-- 2.1; S is not loaded, so NMI is not armed. -/
theorem test_ldx_predecrement_s :
    ran (cells { board with s := 0x8002#16 } 0x8000#16 [0x12#8, 0x34#8]) [0xAE#8, 0xE3#8] (fun t =>
      t.x == 0x1234#16 && t.s == 0x8000#16 && !t.nmiArmed) = true := by decide

/-- 2.1: five bytes. -/
theorem test_ldy_longest :
    ran (cells { board with x := 0x1000#16 } 0x112C#16 [0x80#8, 0x01#8])
      [0x10#8, 0xAE#8, 0x89#8, 0x01#8, 0x2C#8] (fun t =>
      t.y == 0x8001#16 && t.flag .n && t.pc == 0x4005#16) = true := by decide

/-- 2.1. -/
theorem test_ldu_pcr_indirect :
    ran (cells (cells board 0x5004#16 [0x60#8, 0x00#8]) 0x6000#16 [0xCA#8, 0xFE#8])
      [0xEE#8, 0x9D#8, 0x10#8, 0x00#8] (fun t =>
      t.u == 0xCAFE#16 && t.flag .n && t.pc == 0x4004#16) = true := by decide

/-- 2.1: Z set, N and V cleared, C kept. -/
theorem test_std_flags :
    ran { board with y := 0x3000#16, a := 0x00#8, b := 0x00#8, cc := 0x0B#8 } [0xED#8, 0xA1#8] (fun t =>
      t.peekWord 0x3000#16 == 0#16 && t.y == 0x3002#16 && t.cc == 0x05#8) = true := by decide

/-- 1.2, the source's caveat. -/
theorem test_stx_stepped_pointer :
    ran { board with x := 0x0000#16 } [0xAF#8, 0x81#8] (fun t =>
      t.x == 0x0002#16 && t.peek 0#16 == 0x00#8 && t.peek 1#16 == 0x02#8 &&
        t.cc == 0x50#8) = true := by decide

/-- 2.3. -/
theorem test_stx_extended :
    ran { board with x := 0x8001#16, cc := 0x06#8 } [0xBF#8, 0x20#8, 0x00#8] (fun t =>
      t.peek 0x2000#16 == 0x80#8 && t.peek 0x2001#16 == 0x01#8 && t.cc == 0x08#8) = true := by decide

/-- 2.2. -/
theorem test_stu_stepped_pointer :
    ran { board with u := 0x3000#16 } [0xEF#8, 0xC1#8] (fun t =>
      t.u == 0x3002#16 && t.peekWord 0x3000#16 == 0x3002#16) = true := by decide

/-- 2.1: B is signed. -/
theorem test_leax_signed_b :
    ran { board with x := 0x1000#16, b := 0xF0#8 } [0x30#8, 0x85#8] (fun t =>
      t.x == 0x0FF0#16) = true := by decide

/-- 2.1: Z, and only Z. -/
theorem test_leax_zero :
    ran { board with x := 0x0001#16, cc := 0x0B#8 } [0x30#8, 0x1F#8] (fun t =>
      t.x == 0x0000#16 && t.cc == 0x0F#8) = true := by decide

/-- 3.1: B unsigned, no flag. -/
theorem test_abx_unsigned :
    ran { board with x := 0x0001#16, b := 0xFF#8, cc := 0x0F#8 } [0x3A#8] (fun t =>
      t.x == 0x0100#16 && t.cc == 0x0F#8) = true := by decide

/-- 3.1: ,X+ steps once. -/
theorem test_asl_once :
    ran (cells { board with x := 0x4100#16 } 0x4100#16 [0x81#8]) [0x68#8, 0x80#8] (fun t =>
      t.peek 0x4100#16 == 0x02#8 && t.x == 0x4101#16 && t.draws == 1) = true := by decide

/-- 3.1: ASL of $81 and $40 from CC = $D1, whatever the free H: C, Z, V, N and the kept E, F, I. -/
theorem test_asl_flags : ∀ free : Bool,
    aslFlags 0x81#8 free 0xD1#8 &&& 0xDF#8 = 0xD3#8 ∧ aslFlags 0x40#8 free 0xD1#8 &&& 0xDF#8 = 0xDA#8 := by
  decide

/-- 3.1. -/
theorem test_asra_keeps_sign :
    ran { board with a := 0x9C#8 } [0x47#8] (fun t =>
      t.a == 0xCE#8 && t.b == 0x22#8) = true := by decide

/-- 3.1: ASRA of $9C and $01 from CC = $02, whatever the free H: V kept. -/
theorem test_asra_flags : ∀ free : Bool,
    asrFlags 0x9C#8 free 0x02#8 &&& 0xDF#8 = 0x0A#8 ∧ asrFlags 0x01#8 free 0x02#8 &&& 0xDF#8 = 0x07#8 := by
  decide

/-- 3.1. -/
theorem test_clrb :
    ran { board with a := 0x33#8, cc := 0xFB#8 } [0x5F#8] (fun t =>
      t.b == 0x00#8 && t.a == 0x33#8 && t.cc == 0xF4#8) = true := by decide

/-- 3.1: DAA of $9A, of $10 with H, of $20 with C, of $9F with both. -/
theorem test_daa_results :
    ran { board with a := 0x9A#8, cc := 0x00#8 } [0x19#8] (fun t => t.a == 0x00#8) = true ∧
    ran { board with a := 0x10#8, cc := 0x20#8 } [0x19#8] (fun t => t.a == 0x16#8) = true ∧
    ran { board with a := 0x20#8, cc := 0x01#8 } [0x19#8] (fun t => t.a == 0x80#8) = true ∧
    ran { board with a := 0x9F#8, cc := 0x21#8 } [0x19#8] (fun t => t.a == 0x05#8) = true := by decide

/-- 3.1: the flags of those, whatever the free V: N, Z, C, and H kept. -/
theorem test_daa_flags : ∀ free : Bool,
    daaFlags 0x9A#8 free 0x00#8 &&& 0xFD#8 = 0x05#8 ∧ daaFlags 0x10#8 free 0x20#8 &&& 0xFD#8 = 0x20#8 ∧
      daaFlags 0x20#8 free 0x01#8 &&& 0xFD#8 = 0x09#8 ∧
        daaFlags 0x9F#8 free 0x21#8 &&& 0xFD#8 = 0x21#8 := by
  decide

/-- R236: NOP at $1015. -/
theorem test_nop : ran { board with pc := 0x1015#16 } [0x12#8] (fun t =>
    t == { atPc { board with pc := 0x1015#16 } [0x12#8] with pc := 0x1016#16 }) = true := by decide

/-- 3.2. -/
theorem test_tfr_to_s_arms :
    ran { board with x := 0x8000#16 } [0x1F#8, 0x14#8] (fun t =>
      t.s == 0x8000#16 && t.nmiArmed) = true := by decide

/-- 3.2: PC reads as the next instruction. -/
theorem test_tfr_from_pc :
    ran { board with pc := 0x2000#16 } [0x1F#8, 0x51#8] (fun t =>
      t.x == 0x2002#16 && t.pc == 0x2002#16) = true := by decide

/-- 3.2. -/
theorem test_exg_with_pc :
    ran { board with pc := 0x2000#16, x := 0x3000#16 } [0x1E#8, 0x15#8] (fun t =>
      t.pc == 0x3000#16 && t.x == 0x2002#16) = true := by decide

/-- 3.2. -/
theorem test_exg_d_x :
    ran { board with a := 0x12#8, b := 0x34#8, x := 0xABCD#16 } [0x1E#8, 0x01#8] (fun t =>
      t.a == 0xAB#8 && t.b == 0xCD#8 && t.x == 0x1234#16) = true := by decide

/-- 3.3. -/
theorem test_pshs_all :
    ran ({ board with pc := 0x2000#16, dp := 0x33#8, x := 0x4455#16, y := 0x6677#16, u := 0x8899#16, cc := 0xAA#8 })
      [0x34#8, 0xFF#8] (fun t =>
      t.codeBytes 12 0x7FF4#16 == [0xAA#8, 0x11#8, 0x22#8, 0x33#8, 0x44#8, 0x55#8, 0x66#8, 0x77#8, 0x88#8,
        0x99#8, 0x20#8, 0x02#8] && t.s == 0x7FF4#16) = true := by decide

/-- 3.3. -/
theorem test_pshs_wraps :
    ran { board with s := 0x0000#16, cc := 0x55#8 } [0x34#8, 0x01#8] (fun t =>
      t.peek 0xFFFF#16 == 0x55#8 && t.s == 0xFFFF#16 && !t.nmiArmed) = true := by decide

/-- 3.3. -/
theorem test_pulu_all :
    ran (cells { board with u := 0x7000#16 } 0x7000#16 [0xAA#8, 0x11#8, 0x22#8, 0x33#8, 0x44#8,
        0x55#8, 0x66#8, 0x77#8, 0x88#8, 0x99#8, 0x20#8, 0x00#8])
      [0x37#8, 0xFF#8] (fun t =>
      t.cc == 0xAA#8 && t.dp == 0x33#8 && t.x == 0x4455#16 && t.y == 0x6677#16 && t.s == 0x8899#16 &&
        t.pc == 0x2000#16 && t.u == 0x700C#16 && t.nmiArmed) = true := by decide

/-- 3.4. -/
theorem test_beq_taken_backward :
    ran { board with pc := 0x1013#16, cc := 0x04#8 } [0x27#8, 0xF5#8] (fun t =>
      t.pc == 0x100A#16) = true := by decide

/-- 3.4. -/
theorem test_beq_not_taken :
    ran { board with pc := 0x1010#16, cc := 0x00#8 } [0x27#8, 0x03#8] (fun t =>
      t.pc == 0x1012#16) = true := by decide

/-- 3.4: N = V = 1. -/
theorem test_bgt_both_signs :
    ran { board with pc := 0x2000#16, cc := 0x0A#8 } [0x2E#8, 0x80#8] (fun t =>
      t.pc == 0x1F82#16) = true := by decide

/-- 3.4. -/
theorem test_lbeq_taken :
    ran { board with pc := 0x3000#16, cc := 0x04#8 } [0x10#8, 0x27#8, 0x01#8, 0x00#8] (fun t =>
      t.pc == 0x3104#16) = true := by decide

/-- 3.4: N = 1, V = 0. -/
theorem test_lbgt_not_taken :
    ran { board with pc := 0x3004#16, cc := 0x08#8 } [0x10#8, 0x2E#8, 0xFF#8, 0xF8#8] (fun t =>
      t.pc == 0x3008#16) = true := by decide

/-- 3.5. -/
theorem test_swi :
    ran { board with pc := 0x5000#16, cc := 0x00#8 } [0x3F#8] (fun t =>
      t.codeBytes 12 0x7FF4#16 == [0x80#8, 0x11#8, 0x22#8, 0x00#8, 0x12#8, 0x34#8, 0x56#8,
        0x78#8, 0x9A#8, 0xBC#8, 0x50#8, 0x01#8] && t.s == 0x7FF4#16 && t.cc == 0xD0#8 &&
        t.pc == 0x6000#16) = true := by decide

/-- 3.5. -/
theorem test_swi2 :
    ran { board with pc := 0x5000#16, cc := 0x50#8 } [0x10#8, 0x3F#8] (fun t =>
      t.codeBytes 12 0x7FF4#16 == [0xD0#8, 0x11#8, 0x22#8, 0x00#8, 0x12#8, 0x34#8, 0x56#8,
        0x78#8, 0x9A#8, 0xBC#8, 0x50#8, 0x02#8] && t.cc == 0xD0#8 && t.pc == 0x6100#16) = true := by decide

/-- 3.5. -/
theorem test_swi3 :
    ran { board with pc := 0x5000#16, cc := 0x00#8 } [0x11#8, 0x3F#8] (fun t =>
      t.codeBytes 12 0x7FF4#16 == [0x80#8, 0x11#8, 0x22#8, 0x00#8, 0x12#8, 0x34#8, 0x56#8,
        0x78#8, 0x9A#8, 0xBC#8, 0x50#8, 0x02#8] && t.cc == 0x80#8 && t.pc == 0x6200#16) = true := by decide

/-- 3.5. -/
theorem test_rti_full :
    ran (cells { board with s := 0x7FF4#16, a := 0#8, b := 0#8, x := 0#16, y := 0#16, u := 0#16, cc := 0xD0#8 }
        0x7FF4#16 [0x80#8, 0x11#8, 0x22#8, 0x00#8, 0x12#8, 0x34#8, 0x56#8, 0x78#8, 0x9A#8, 0xBC#8, 0x50#8, 0x01#8])
      [0x3B#8] (fun t =>
      t.cc == 0x80#8 && t.a == 0x11#8 && t.b == 0x22#8 && t.x == 0x1234#16 && t.y == 0x5678#16 &&
        t.u == 0x9ABC#16 && t.pc == 0x5001#16 && t.s == 0x8000#16) = true := by decide

/-- 3.5. -/
theorem test_rti_short :
    ran (cells { board with s := 0x7FFD#16, a := 0x99#8, cc := 0x50#8 } 0x7FFD#16 [0x05#8, 0x50#8, 0x01#8])
      [0x3B#8] (fun t =>
      t.cc == 0x05#8 && t.a == 0x99#8 && t.pc == 0x5001#16 && t.s == 0x8000#16) = true := by decide

/-- 3.5. -/
theorem test_cwai_stacks :
    ran { board with pc := 0x5000#16, cc := 0x55#8 } [0x3C#8, 0xEF#8] (fun t =>
      t.codeBytes 12 0x7FF4#16 == [0xC5#8, 0x11#8, 0x22#8, 0x00#8, 0x12#8, 0x34#8, 0x56#8,
        0x78#8, 0x9A#8, 0xBC#8, 0x50#8, 0x02#8] && t.cc == 0xC5#8 && t.runState == .cwaiWait &&
        t.pc == 0x5002#16) = true := by decide

/-- 3.5. -/
theorem test_sync_waits :
    ran board [0x13#8] (fun t =>
      t == { atPc board [0x13#8] with pc := 0x4001#16, runState := .syncWait }) = true := by decide

/-! ## Interrupts, waits and RESET (spec/95_test_vectors.md 3.5 to 3.7) -/

/-- One boundary's inputs. -/
def inputs (reset firq irq nmiEdge : Bool) : List EnvInput := [EnvInput.mk reset firq irq nmiEdge]

/-- Interrupt entry: IRQ, FIRQ over IRQ, NMI. -/
theorem test_interrupt_entries :
    holds (step { board with cc := 0x05#8, env := inputs false false true false })
      (fun t => t.cc == 0x95#8 && t.pc == 0x6400#16 && t.s == 0x7FF4#16 &&
        t.peek 0x7FF4#16 == 0x85#8) = true ∧
    holds (step { board with cc := 0x05#8, env := inputs false true true false })
      (fun t => t.cc == 0x55#8 && t.pc == 0x6300#16 && t.s == 0x7FFD#16 &&
        t.peek 0x7FFD#16 == 0x05#8) = true ∧
    holds (step { board with cc := 0x05#8, nmiArmed := true, env := inputs false true true true })
      (fun t => t.cc == 0xD5#8 && t.pc == 0x6500#16 && !t.nmiPending) = true := by decide

/-- A masked IRQ ends SYNC without being taken; it does not end CWAI, an unmasked FIRQ does and stacks
nothing more. -/
theorem test_waits :
    holds (step { board with runState := .syncWait, env := inputs false false true false })
      (fun t => t.runState == .running && t.pc == 0x4000#16 && t.s == 0x8000#16) = true ∧
    holds (step { board with cc := 0x90#8, runState := .cwaiWait, env := inputs false false true false })
      (fun t => t.runState == .cwaiWait) = true ∧
    holds (step { board with cc := 0x90#8, runState := .cwaiWait, env := inputs false true false false })
      (fun t => t.runState == .running && t.cc == 0xD0#8 && t.pc == 0x6300#16 &&
        t.s == 0x8000#16) = true := by
  decide

/-- RESET in a wait, 3.7. -/
theorem test_reset_step :
    holds (step { board with dp := 0x44#8, nmiArmed := true, runState := .cwaiWait,
                             env := inputs true true true true })
      (fun t => t.pc == 0xC000#16 && t.dp == 0x00#8 && !t.nmiArmed && !t.nmiPending &&
        t.runState == .running && t.mem == board.mem) = true := by decide

/-- A counter: a read answers register 0 and adds 1 to it, a write is ignored. -/
def counter : Device :=
  { number := 0, readValue := .reg 0, onRead := [(0, .op .add (.reg 0) (.lit 1))], onWrite := [] }

/-- A latch: a write keeps the byte, a read answers it. -/
def latch : Device := { number := 1, readValue := .reg 0, onRead := [], onWrite := [(0, .data)] }

/-- A counter at $E000, a latch at $E001, an open bus page at $D000, a ROM page at $F000, an unmapped page
at $4000. -/
def mapped : State :=
  { board with
    map := [{ base := 0xE000, size := 1, kind := .device counter },
      { base := 0xE001, size := 1, kind := .device latch },
      { base := 0xD000, size := 0x1000, kind := .openBus }, { base := 0xF000, size := 256, kind := .rom },
      { base := 0x4000, size := 256, kind := .unmapped }]
    devices := [[0xE0], [0x01]] }

/-! ## Devices (R61), on a counter and a latch -/

/-- A read changes the device, once for each byte read; the pointer of LDA [$E000] is read from both. -/
theorem test_device_reads :
    ran { mapped with pc := 0x5000#16 } [0xFC#8, 0xE0#8, 0x00#8] (fun t =>
      t.a == 0xE0#8 && t.b == 0x01#8 && t.devices == [[0xE1], [0x01]] && getFlag t.cc .n) = true ∧
    ran { mapped with pc := 0x5000#16 } [0xA6#8, 0x9F#8, 0xE0#8, 0x00#8] (fun t =>
      t.a == 0x01#8 && t.temp == 0xE001#16 && t.devices == [[0xE1], [0x01]]) = true := by decide

/-- A write changes the device and no memory; ASL on the latch reads it and writes it back doubled. -/
theorem test_device_writes :
    holds (exec (.stxExt 0xE000#16) mapped) (fun t =>
      t.devices == [[0xE0], [0x34]] && t.mem == mapped.mem) = true ∧
    holds (exec (.aslExt 0xE001#16) { mapped with devices := [[0xE0], [0xC1]] }) (fun t =>
      t.devices == [[0xE0], [0x82]] && t.mem == mapped.mem) = true := by decide

/-- PULU A,B with U at the counter: A takes the counter's answer, B the latch's, each read once. -/
theorem test_pulu_from_devices :
    holds (exec (.pulu 0x06#8) { mapped with u := 0xE000#16 }) (fun t =>
      t.a == 0xE0#8 && t.b == 0x01#8 && t.u == 0xE002#16 && t.devices == [[0xE1], [0x01]]) = true := by decide

/-- The functions compute: the operations, and a choice by an address. -/
theorem test_device_functions :
    let x : DeviceAccess := { regs := [9, 200], addr := 0xE003, data := 6, free := 0 }
    (DeviceExpr.op .mul (.reg 0) .data).eval x = 54 ∧ (DeviceExpr.op .sub .data (.reg 0)).eval x = 0 ∧
    (DeviceExpr.op .and (.reg 1) (.lit 0xF0)).eval x = 0xC0 ∧ (DeviceExpr.reg 2).eval x = 0 ∧
    (DeviceExpr.ifLe (.lit 0xE002) .addr (.reg 1) (.lit 5)).eval x = 200 ∧
    x.after [(0, .reg 1), (1, .op .add (.reg 0) .data)] = [200, 15] := by decide

/-! ## Witnesses: a state and operands that meet the hypotheses of each obligation

A theorem is named after the obligation it is for; a part for each clause that has hypotheses. -/

/-- A state whose next step enters an interrupt: the given inputs, masks clear, NMI armed. -/
def unmasked (firq irq nmiEdge : Bool) : State :=
  { board with cc := 0x00#8, nmiArmed := true, env := inputs false firq irq nmiEdge }

theorem witness_DecodeOfEncodeIsTheInstruction :
    Instr.wellFormed (.ldyIdx (.off16 .s 0xFFFF#16)) = true ∧ Instr.wellFormed (.exg .pc .d) = true := by
  decide

theorem witness_DecodedInstructionsAreWellFormed :
    decode [0x12#8, 0xFF#8] = .ok (.nop, [0xFF#8]) ∧
      decode [0x10#8, 0xAE#8, 0xFF#8, 0xFF#8, 0xFE#8] = .ok (.ldyIdx (.extInd 0xFFFE#16), []) := by decide

theorem witness_IllegalIndexedPostbytesAreTheNinePatterns :
    ((0xFE#8 &&& 0x9F#8) ∈ illegalPostbytes) ∧ ¬ (0x7E#8 &&& 0x9F#8) ∈ illegalPostbytes := by decide

theorem witness_DontCarePostbyteBitsDoNotChangeTheForm :
    (0x8C#8 &&& 0x9F#8) ∈ [0x8C#8, 0x9C#8, 0x8D#8, 0x9D#8, 0x9F#8] ∧ 0x8C#8 &&& 0x9F#8 = 0xEC#8 &&& 0x9F#8 ∧
      (0x9F#8 &&& 0x9F#8) ∈ [0x8C#8, 0x9C#8, 0x8D#8, 0x9D#8, 0x9F#8] ∧
      0x9F#8 &&& 0x9F#8 = 0xFF#8 &&& 0x9F#8 := by decide

/-- Five bytes that wrap past $FFFF, and one byte. -/
theorem witness_StepRunsTheDecodedInstruction :
    let st := atPc { board with pc := 0xFFFE#16 } [0x10#8, 0xAE#8, 0x89#8, 0x01#8, 0x2C#8]
    let st1 := atPc board [0x12#8]
    (st.quiet = true ∧ decode (st.codeBytes 5 st.pc) = .ok (.ldyIdx (.off16 .x 300#16), []) ∧
      BackedFrom st st.pc 5) ∧
    (st1.quiet = true ∧ decode (st1.codeBytes 5 st1.pc) = .ok (.nop, [0#8, 0#8, 0#8, 0#8]) ∧
      BackedFrom st1 st1.pc 1) := by decide

theorem witness_StepRefusesUnknownOpcodes :
    let st := atPc board [0x4F#8]
    let st2 := atPc board [0x10#8, 0x8F#8]
    let st3 := atPc board [0x11#8, 0x10#8]
    (st.quiet = true ∧ st.backed st.pc = true ∧ st.peek st.pc ∉ 0x10#8 :: 0x11#8 :: opcodesAlone) ∧
    (st2.quiet = true ∧ st2.backed st2.pc = true ∧ st2.backed (st2.pc + 1#16) = true ∧
      st2.peek st2.pc = 0x10#8 ∧ st2.peek (st2.pc + 1#16) ∉ opcodesAfter10) ∧
    (st3.quiet = true ∧ st3.backed st3.pc = true ∧ st3.backed (st3.pc + 1#16) = true ∧
      st3.peek st3.pc = 0x11#8 ∧ st3.peek (st3.pc + 1#16) ∉ opcodesAfter11 ∧
      st3.peek (st3.pc + 1#16) = 0x10#8) := by decide

/-- The lists of opcodes have 48, 7 and 1 members, none twice (R99). -/
theorem test_opcode_lists :
    opcodesAlone.Nodup ∧ opcodesAlone.length = 48 ∧ opcodesAfter10.Nodup ∧ opcodesAfter10.length = 7 ∧
      opcodesAfter11.length = 1 := by decide

theorem witness_StepFaultsOnIllegalPostbytes :
    let st := atPc board [0xA6#8, 0x90#8]
    let st2 := atPc { board with pc := 0xFFFE#16 } [0x10#8, 0xAE#8, 0xFE#8]
    (st.quiet = true ∧ BackedFrom st st.pc 2 ∧ st.peek st.pc ∈ indexedOpcodes ∧
      (st.peek (st.pc + 1#16) &&& 0x9F#8) ∈ illegalPostbytes) ∧
    (st2.quiet = true ∧ BackedFrom st2 st2.pc 3 ∧ st2.peek st2.pc = 0x10#8 ∧
      st2.peek (st2.pc + 1#16) = 0xAE#8 ∧ (st2.peek (st2.pc + 2#16) &&& 0x9F#8) ∈ illegalPostbytes) := by
  decide

/-- A first code of no register, a second one, and D with A. -/
theorem witness_IllegalRegisterPairsAreRefused :
    let st (pb : Byte) := atPc board [0x1F#8, pb]
    (∀ pb ∈ [0x61#8, 0x8F#8, 0x08#8], (st pb).quiet = true ∧ BackedFrom (st pb) (st pb).pc 2 ∧
      (st pb).peek (st pb).pc = 0x1F#8 ∧ (st pb).peek ((st pb).pc + 1#16) = pb) ∧
    BitVec.extractLsb' 4 4 0x61#8 ∈ unusedRegisterCodes ∧
    BitVec.extractLsb' 0 4 0x8F#8 ∈ unusedRegisterCodes ∧ BitVec.getLsbD 0x08#8 7 ≠ BitVec.getLsbD 0x08#8 3 ∧
    Reg.isWide .a ≠ Reg.isWide .d := by decide

theorem witness_WordsLieInMemoryHighByteFirst :
    board.mem.wf = true ∧ RamFrom board 0xFFFF#16 2 ∧ BackedFrom mapped 0xF0FF#16 2 := by
  decide

/-- The unmapped page met at its first byte, at its last, and at the second byte of a word; by a fetch that
begins in it and by one that runs into it; by a pointer; by a direct, an extended and an indirect operand. -/
theorem witness_UnmappedAddressesFaultEveryAccess :
    let st := atPc { mapped with pc := 0x3FFD#16 } [0x10#8, 0xAE#8, 0x89#8]
    let st1 := { mapped with dp := 0x40#8 }
    (mapped.mapped 0x4000#16 = false ∧ mapped.mapped 0x40FF#16 = false) ∧
    (UnmappedGoingUp mapped 0x3FFF#16 2 1 ∧ UnmappedGoingUp mapped 0x40FF#16 2 0) ∧
    (mapped.quiet = true ∧ mapped.pc = 0x4000#16 ∧ decode (mapped.codeBytes 0 mapped.pc) = .error .truncated ∧
      mapped.mapped (mapped.pc + BitVec.ofNat 16 0) = false) ∧
    (st.quiet = true ∧ BackedFrom st st.pc 3 ∧ decode (st.codeBytes 3 st.pc) = .error .truncated ∧
      st.mapped (st.pc + BitVec.ofNat 16 3) = false) ∧
    (isIndirect (.extInd 0x3FFF#16) = true ∧
      UnmappedGoingUp mapped (plainAddress mapped (.extInd 0x3FFF#16)) 2 1) ∧
    (MemOperand.Reaches st1 { st1 with temp := 0x40FF#16 } (.direct 0xFF#8) ∧
      UnmappedGoingUp { st1 with temp := 0x40FF#16 } 0x40FF#16 2 0) ∧
    MemOperand.Reaches mapped { mapped with temp := 0x3FFF#16 } (.extended 0x3FFF#16) ∧
    (∃ u, MemOperand.Reaches { mapped with devices := [[0x40], [0x80]] } u (.indexed (.extInd 0xE000#16)) ∧
      u.temp = 0x4080#16) := by
  refine ⟨by decide, by decide, by decide, by decide, by decide, ⟨rfl, by decide⟩, rfl, ?_⟩
  exact ⟨_, ⟨_, _, rfl, rfl⟩, rfl⟩

/-- The unmapped page met by a push, a pull and an entry; a vector whose second byte does not answer. -/
theorem witness_UnmappedStacksAndVectorsFault :
    let st := { mapped with s := 0x4106#16, u := 0x3FF8#16 }
    let st1 := { mapped with s := 0x4102#16 }
    let st2 := cells { mapped with s := 0x3FF8#16 } 0x3FF8#16 [0x80#8]
    let st3 := { board with
                 map := [{ base := 0xFFF7, size := 1, kind := .unmapped },
                   { base := 0xFFFF, size := 1, kind := .unmapped }]
                 env := inputs true false false false }
    (UnmappedGoingDown st (st.s - 1#16) (listBytes 0xFF#8) 6 ∧ UnmappedGoingDown st (st.s - 1#16) 12 6 ∧
      UnmappedGoingDown st (st.s - 1#16) (frameBytes .irq) 6 ∧
      UnmappedGoingDown st1 (st1.s - 1#16) (frameBytes .firq) 2 ∧ softwareInterrupt .swi3 .swi3) ∧
    (MappedFrom st3 (st3.s - BitVec.ofNat 16 (frameBytes .firq)) (frameBytes .firq) ∧
      UnmappedGoingUp st3 (vectorOf .firq) 2 1) ∧
    UnmappedGoingUp st st.u (listBytes 0xFF#8) 8 ∧
    UnmappedGoingUp { mapped with s := 0x3FFE#16 } 0x3FFE#16 3 2 ∧
    (readByte st2.s st2 = .next (0x80#8, st2) ∧ UnmappedGoingUp st2 st2.s 12 8) ∧
    st3.input.reset = true ∧ UnmappedGoingUp st3 0xFFFE#16 2 1 := by
  refine ⟨⟨by decide, by decide, by decide, by decide, .inr (.inr ⟨rfl, rfl⟩)⟩, by decide, by decide,
    by decide, ⟨rfl, by decide⟩, by decide, by decide⟩

/-- A pointer whose bytes an open bus and a device answer, one in devices that points to a device, and
operands in an open bus and in devices. -/
theorem witness_DeviceAccessesComplete :
    MemOperand.PointerMapped mapped (.indexed (.extInd 0xDFFF#16)) ∧
    (MemOperand.PointerMapped mapped (.indexed (.extInd 0xE000#16)) ∧
      ∃ u, MemOperand.Reaches mapped u (.indexed (.extInd 0xE000#16)) ∧ u.temp = 0xE001#16 ∧
        mapped.mapped u.temp = true) ∧
    mapped.mapped 0xDFFF#16 = true ∧ MappedFrom mapped 0xDFFF#16 2 ∧ MappedFrom mapped 0xE000#16 2 :=
  ⟨by decide, ⟨by decide, _, ⟨_, _, rfl, rfl⟩, by decide, by decide⟩, by decide, by decide, by decide⟩

/-- A U stack in the open bus and the devices; RTI from the latch with either E; an S stack that runs from
the devices into the open bus, with vectors an open bus answers. -/
theorem witness_PullsAndEntriesCompleteWhateverAnswers :
    let st := { mapped with s := 0xE001#16, devices := [[0xE0], [0x80]] }
    let st1 := { mapped with s := 0xE001#16 }
    let st2 := { mapped with
                 map := { base := 0xFFF0, size := 16, kind := .openBus } :: mapped.map, s := 0xE002#16 }
    MappedFrom mapped 0xDFFE#16 (listBytes 0xFF#8) ∧
    (∃ v w, readByte st.s st = .next (v, w) ∧ v.getLsbD 7 = true ∧ MappedFrom st st.s 12) ∧
    (∃ v w, readByte st1.s st1 = .next (v, w) ∧ v.getLsbD 7 = false ∧ MappedFrom st1 st1.s 3) ∧
    ∀ ev ∈ [Event.nmi, .firq, .swi2],
      MappedFrom st2 (st2.s - BitVec.ofNat 16 (frameBytes ev)) (frameBytes ev) ∧
        MappedFrom st2 (vectorOf ev) 2 :=
  ⟨by decide, ⟨_, _, rfl, by decide, by decide⟩, ⟨_, _, rfl, by decide, by decide⟩, by decide⟩

/-- The latch, seen from a state that differs in a register and in the other device. -/
theorem witness_DeviceAccessesStayInTheDevice :
    let st' := { mapped with a := 0x00#8, devices := [[0], [0x01]] }
    mapped.kindAt 0xE000#16 = .device counter ∧ mapped.kindAt 0xE001#16 = .device latch ∧
      st'.kindAt 0xE001#16 = .device latch ∧ st'.draws = mapped.draws ∧
      st'.devices[latch.number]? = mapped.devices[latch.number]? ∧
      mapped.devices[latch.number]? = some [0x01] ∧ 0 < [0x01].length ∧ latch.onWrite = [(0, .data)] ∧
      latch.readValue = .reg 0 := by decide

/-- STX $F0FF stores its first byte to ROM. -/
theorem witness_NoStepChangesMemoryOutsideRam :
    let st := atPc { mapped with pc := 0x5000#16 } [0xBF#8, 0xF0#8, 0xFF#8]
    (∃ t, step st = .next t) ∧ st.kindAt 0xF0FF#16 ≠ .ram := ⟨next_of_holds (by decide), by decide⟩

theorem witness_InstructionsThatStoreNothingLeaveMemory :
    canStore (.ldxIdx (.inc2Ind .s)) = false ∧ ∃ t, exec (.ldxIdx (.inc2Ind .s)) board = .next t :=
  ⟨by decide, next_of_holds (by decide)⟩

/-- A wait after CWAI that goes on, and an instruction that stores. -/
theorem witness_EveryStepKeepsTheInvariant :
    let st := { board with cc := 0xD0#8, runState := .cwaiWait, nmiArmed := true, nmiPending := true }
    let st1 := atPc board [0xBF#8, 0x20#8, 0x00#8]
    (st.Inv ∧ ∃ t, step st = .next t) ∧ (st1.Inv ∧ ∃ t, step st1 = .next t) :=
  ⟨⟨⟨by decide, by decide, by decide⟩, next_of_holds (by decide)⟩,
    ⟨by decide, by decide, by decide⟩, next_of_holds (by decide)⟩

theorem witness_NoStepChangesMemMapAndEachUsesOneInput :
    ∃ t, step { mapped with pc := 0x5000#16, env := inputs true false false false } = .next t :=
  next_of_holds (by decide)

/-- TFR X,S loads S; PSHS does not, nor does a load through S. -/
theorem witness_OnlyLoadsOfSArmNmi :
    (loadsS (.tfr .x .s) ∧ ∃ t, exec (.tfr .x .s) board = .next t) ∧
      (¬ loadsS (.pshs 0xFF#8) ∧ ∃ t, exec (.pshs 0xFF#8) board = .next t) :=
  ⟨⟨.inl ⟨.x, rfl⟩, next_of_holds (by decide)⟩, by simp [loadsS], next_of_holds (by decide)⟩

theorem witness_OnlyTransfersPullsAndRtiWriteTheDirectPage :
    ¬ canWriteDp (.pulu 0xF7#8) ∧ ∃ t, exec (.pulu 0xF7#8) board = .next t :=
  ⟨by simp [canWriteDp], next_of_holds (by decide)⟩

theorem witness_OnlyListedInstructionsChangeTheMasks :
    ¬ canChangeMasks (.pulu 0xFE#8) ∧ ∃ t, exec (.pulu 0xFE#8) board = .next t :=
  ⟨by simp [canChangeMasks], next_of_holds (by decide)⟩

/-- An instruction of each kind of row, and an entry. -/
theorem witness_FlagsChangeAsTheTableSays :
    (∃ t, exec .clrb board = .next t) ∧ (∃ t, exec (.exg .cc .a) board = .next t) ∧
      (∃ t, exec (.pulu 0xFE#8) board = .next t) ∧ ∃ t, enterException .firq board = .next t :=
  ⟨next_of_holds (by decide), next_of_holds (by decide), next_of_holds (by decide),
        next_of_holds (by decide)⟩

theorem witness_OnlySyncAndCwaiBeginAWait :
    (∃ t, exec .sync board = .next t) ∧ (∃ t, exec (.cwai 0xEF#8) board = .next t) ∧
      ∃ t, exec .swi board = .next t :=
  ⟨next_of_holds (by decide), next_of_holds (by decide), next_of_holds (by decide)⟩

/-- A pointer that wraps past $FFFF. -/
theorem witness_PostbyteRowsHoldTheirEffectiveAddress :
    isIndirect (.extInd 0xFFFF#16) = true ∧ PointerBacked board (.extInd 0xFFFF#16) ∧
      PointerBacked board (.inc1 .s) := by decide

theorem witness_OnlyAutoFormsWriteAPointerRegister :
    (isAuto (.dec2Ind .y) = true ∧ ∃ t, exec (postbyteRow (.dec2Ind .y)) board = .next t) ∧
      (isAuto (.off5 .x 0b10000#5) = false ∧ ∃ t,
        exec (postbyteRow (.off5 .x 0b10000#5)) board = .next t) :=
  ⟨⟨by decide, next_of_holds (by decide)⟩, by decide, next_of_holds (by decide)⟩

/-- Distances of +127 (one byte) and +128 (two bytes), and a short branch of the longest reach. -/
theorem witness_AssembledFormsReachTheirAddress :
    (0x4003#16 = 0x4000#16 + 2#16 +
      BitVec.ofNat 16 (Assembler.pcRelative 0x4000#16 2#16 0x4082#16).extraBytes) ∧
    (0x4004#16 = 0x4000#16 + 2#16 +
      BitVec.ofNat 16 (Assembler.pcRelativeIndirect 0x4000#16 2#16 0x4083#16).extraBytes) ∧
    (Assembler.shortBranch 0x3FFE#16 0x3F80#16 = some 0x80#8 ∧ board.pc = 0x3FFE#16 + 2#16 ∧
      getFlag 0x04#8 .z = true ∧ getFlag 0x0A#8 .z = false ∧ getFlag 0x0A#8 .n = getFlag 0x0A#8 .v) ∧
    board.pc = 0x3FFC#16 + 4#16 := by decide

theorem witness_LdaAndLdbLoadAByte :
    MemOperand.Ready board (.indexed (.zeroInd .x)) ∧
      board.backed (MemOperand.ea board (.indexed (.zeroInd .x))) = true ∧
      board.backed (MemOperand.ea board (.direct 0xFF#8)) = true ∧
      board.backed (MemOperand.ea board (.extended 0xFFFF#16)) = true := by decide

theorem witness_LddLoadsThePair :
    MemOperand.Ready board (.indexed (.accDInd .y)) ∧
      BackedFrom board (MemOperand.ea board (.indexed (.accDInd .y))) 2 ∧
      BackedFrom board (MemOperand.ea board (.extended 0xFFFF#16)) 2 := by decide

theorem witness_PointerLoadsLoadAWord :
    MemOperand.Ready board (.indexed (.inc2Ind .x)) ∧
      BackedFrom board (MemOperand.ea board (.indexed (.inc2Ind .x))) 2 ∧
      BackedFrom board (MemOperand.ea board (.extended 0xFFFF#16)) 2 := by decide

theorem witness_EveryLoadAndStoreSetsTheMoveFlags :
    (∃ t, exec (.ldaImm 0x80#8) board = .next t ∧ movedByte t (.ldaImm 0x80#8) = some 0x80#8) ∧
      ∃ t, exec (.stxIdx (.dec2 .x)) board = .next t ∧ movedWord t (.stxIdx (.dec2 .x)) = some 0x1232#16 :=
  ⟨⟨_, rfl, rfl⟩, ⟨_, rfl, by decide⟩⟩

/-- No device lies under the stack of `board` (every statement that says SameDevicesUnlessIn). -/
theorem witness_SameDevicesUnlessIn :
    ∀ k, k < 12 → ∀ d, board.kindAt (0x7FF4#16 + BitVec.ofNat 16 k) ≠ .device d :=
  fun _ _ _ => RegionKind.noConfusion

/-- A store that wraps, for each of the three instructions. -/
theorem witness_StdStxStuStoreAWord :
    MemOperand.Ready board (.extended 0xFFFF#16) ∧
      MappedFrom board (MemOperand.ea board (.extended 0xFFFF#16)) 2 ∧ board.mem.wf = true ∧
      RamFrom board (MemOperand.ea board (.extended 0xFFFF#16)) 2 ∧
      (stdOf (.extended 0xFFFF#16) = .stdExt 0xFFFF#16 ∧ stxOf (.extended 0xFFFF#16) = .stxExt 0xFFFF#16 ∧
        stuOf (.extended 0xFFFF#16) = .stuExt 0xFFFF#16) := by decide

theorem witness_StxAutoIncrementStoresTheSteppedPointer :
    let st := { board with x := 0xFFFF#16 }
    st.mem.wf = true ∧ RamFrom st st.x 2 := by decide

theorem witness_LeaxLoadsTheAddress :
    PointerBacked board (.inc2Ind .x) ∧ PointerBacked board (.off8 .x 0x80#8) := by decide

theorem witness_AslDoublesTheByteInMemory :
    MemOperand.Ready board (.indexed (.extInd 0x4100#16)) ∧
      board.backed (MemOperand.ea board (.indexed (.extInd 0x4100#16))) = true ∧ board.mem.wf = true ∧
      board.kindAt (MemOperand.ea board (.indexed (.extInd 0x4100#16))) = .ram := by decide

/-- 99 + 99 in packed form leaves $32 with half carry and carry. -/
theorem witness_DaaCorrectsAPackedDecimalSum :
    let st := { board with a := 0x32#8, cc := 0x21#8 }
    st.a.toNat = (16 * 9 + 9 + (16 * 9 + 9)) % 256 ∧ getFlag st.cc .h = decide (16 ≤ 9 + 9) ∧
      getFlag st.cc .c = decide (256 ≤ 16 * 9 + 9 + (16 * 9 + 9)) := by decide

theorem witness_TfrCopiesTheSource : Reg.isWide .pc = Reg.isWide .d ∧ Reg.isWide .cc = Reg.isWide .dp := by
  decide

theorem witness_ExgSwapsTheTwo : Reg.isWide .s = Reg.isWide .pc ∧ Reg.isWide .a = Reg.isWide .b := by decide

/-- The whole list on a stack that wraps. -/
theorem witness_PshsStacksTheListedRegisters :
    let st := { board with s := 0x0005#16 }
    MappedFrom st (st.s - BitVec.ofNat 16 (listBytes 0xFF#8)) (listBytes 0xFF#8) ∧ st.mem.wf = true ∧
      RamFrom st (st.s - BitVec.ofNat 16 (listBytes 0xFF#8)) (listBytes 0xFF#8) := by decide

theorem witness_PuluLoadsTheListedRegisters :
    BackedFrom { board with u := 0xFFFE#16 } 0xFFFE#16 (listBytes 0xFF#8) := by decide

theorem witness_PullOfTheSameListUndoesThePush :
    RamFrom board (board.s - BitVec.ofNat 16 (listBytes 0xFF#8)) (listBytes 0xFF#8) ∧ board.mem.wf = true ∧
      ∃ t w : State, exec (.pshs 0xFF#8) board = .next t ∧ w.mem = t.mem ∧ w.map = t.map ∧ w.u = t.s := by
  obtain ⟨t, h⟩ := next_of_holds (o := exec (.pshs 0xFF#8) board) (by decide)
  exact ⟨by decide, by decide, t, { State.reset with mem := t.mem, map := t.map, u := t.s }, h, rfl,
        rfl, rfl⟩

theorem witness_StackingTheEntireState : MappedFrom board (board.s - 12#16) 12 := by decide

theorem witness_SoftwareInterruptsEnterTheirHandlers :
    MappedFrom board (board.s - 12#16) 12 ∧ RamFrom board (board.s - 12#16) 12 ∧ board.mem.wf = true ∧
      BackedFrom board 0xFFFA#16 2 ∧ BackedFrom board 0xFFF4#16 2 ∧
        BackedFrom board 0xFFF2#16 2 := by decide

/-- NMI with FIRQ and IRQ beside it, and IRQ alone. -/
theorem witness_NmiAndIrqEntry :
    let st := unmasked true true true
    let st1 := unmasked false true false
    (st.runState = .running ∧ st.input.reset = false ∧ MappedFrom st (st.s - 12#16) 12 ∧ NmiAtStep st ∧
      BackedFrom st 0xFFFC#16 2) ∧
    (st1.runState = .running ∧ st1.input.reset = false ∧ MappedFrom st1 (st1.s - 12#16) 12 ∧
      ¬ NmiAtStep st1 ∧ ¬ FirqAtStep st1 ∧ IrqAtStep st1 ∧ BackedFrom st1 0xFFF8#16 2) := by decide

theorem witness_FirqEntry :
    let st := unmasked true true false
    st.runState = .running ∧ st.input.reset = false ∧ ¬ NmiAtStep st ∧ FirqAtStep st ∧
      MappedFrom st (st.s - 3#16) 3 ∧ BackedFrom st 0xFFF6#16 2 := by decide

theorem witness_RtiPullsWhatTheStackedESays :
    let st := cells board 0x8000#16 [0x80#8]
    ((st.peek st.s).getLsbD 7 = true ∧ BackedFrom st st.s 12) ∧
      (board.peek board.s).getLsbD 7 = false ∧ BackedFrom board board.s 3 := by decide

theorem witness_RtiUndoesEveryEntry :
    (RamFrom board (board.s - 3#16) 3 ∧ board.mem.wf = true ∧ ∃ t, enterException .firq board = .next t) ∧
      (RamFrom board (board.s - 12#16) 12 ∧ ∃ t, enterException .nmi board = .next t) :=
  ⟨⟨by decide, by decide, next_of_holds (by decide)⟩, by decide, next_of_holds (by decide)⟩

theorem witness_CwaiStacksAndWaits : MappedFrom board (board.s - 12#16) 12 := by decide

/-- The four outcomes of the wait: NMI, FIRQ, IRQ, none. -/
theorem witness_CwaiWaitEndsOnAnUnmaskedInterrupt :
    let w (st : State) := { st with runState := RunState.cwaiWait }
    ((w (unmasked true true true)).input.reset = false ∧ NmiAtStep (w (unmasked true true true)) ∧
      BackedFrom (w (unmasked true true true)) 0xFFFC#16 2) ∧
    (¬ NmiAtStep (w (unmasked true true false)) ∧ FirqAtStep (w (unmasked true true false)) ∧
      BackedFrom (w (unmasked true true false)) 0xFFF6#16 2) ∧
    (¬ NmiAtStep (w (unmasked false true false)) ∧ ¬ FirqAtStep (w (unmasked false true false)) ∧
      IrqAtStep (w (unmasked false true false)) ∧ BackedFrom (w (unmasked false true false)) 0xFFF8#16 2) ∧
    (¬ NmiAtStep (w board) ∧ ¬ FirqAtStep (w board) ∧ ¬ IrqAtStep (w board)) := by decide

/-- A masked IRQ, and nothing. -/
theorem witness_SyncWaitsForAnyInput :
    let st := { board with runState := RunState.syncWait, env := inputs false false true false }
    let st1 := { board with runState := RunState.syncWait }
    (st.runState = .syncWait ∧ st.input.reset = false ∧ st.input.irq = true) ∧
      st1.runState = .syncWait ∧ st1.input.reset = false ∧ ¬ NmiAtStep st1 ∧ st1.input.firq = false ∧
      st1.input.irq = false := by decide

theorem witness_ResetStepSetsWhatTheSpecGives :
    let st := { board with runState := RunState.cwaiWait, env := inputs true true true true }
    st.input.reset = true ∧ BackedFrom st 0xFFFE#16 2 := by decide

/-- An edge in SyncWait with NMI armed, and with NMI not armed. -/
theorem witness_NmiEdgeIsLatchedOnlyWhileArmed :
    let st := { board with runState := RunState.syncWait, env := inputs false false false true }
    let st1 := { st with nmiArmed := true }
    (st1.nmiArmed = true ∧ st1.input.nmiEdge = true ∧ st1.runState = .syncWait ∧
      st1.input.reset = false) ∧
    st.nmiArmed = false ∧ st.runState = .syncWait ∧ st.input.reset = false ∧ st.input.firq = false ∧
      st.input.irq = false ∧ st.input.nmiEdge = true := by decide

end Sys2Proof.Tests
end

section
/-! PROOFS. MemMap and Env are parameters of a run (R7, R315): what executes an instruction, enters a handler
or resets the MPU leaves both as they are, and a step's own part is to use up one entry of Env. -/

namespace Sys2Proof.Machine

/-! ## What leaves the parameters -/

/-- MemMap and the inputs to come are the same in both states (R7). -/
structure SameParams (st t : State) : Prop where
  map : t.map = st.map
  env : t.env = st.env

theorem SameParams.trans {st t w : State} (h : SameParams st t) (h' : SameParams t w) : SameParams st w :=
  ⟨h'.map.trans h.map, h'.env.trans h.env⟩

/-- The operation leaves MemMap and the inputs to come wherever it answers a state. -/
def KeepsParams (op : State → Result) : Prop := ∀ ⦃st t : State⦄, op st = .next t → SameParams st t

/-- A frame equation `e` names the new state by the old one's fields; it says the two that matter here. -/
theorem sameParams_of_eq {st t u : State} (e : t = u) (hu : SameParams st u) : SameParams st t := by
  subst e
  exact hu

/-- An operation that only updates the state. -/
theorem sameParams_of_next {st t u : State} (h : (Host.Outcome.next u : Result) = .next t)
    (hu : SameParams st u) : SameParams st t := by
  cases h
  exact hu

theorem KeepsParams.andThen {op f : State → Result} (hop : KeepsParams op) (hf : KeepsParams f) :
    KeepsParams fun st => andThen (op st) f := fun st t h => by
  obtain ⟨u, h0, h1⟩ := andThen_eq_next.mp h
  exact (hop h0).trans (hf h1)

/-! ## Reads, pushes and pulls -/

theorem readByte_sameParams {addr : Word} {st t : State} {v : Byte}
    (h : readByte addr st = .next (v, t)) : SameParams st t :=
  sameParams_of_eq (readByte_frame h) ⟨rfl, rfl⟩

theorem readWord_sameParams {addr : Word} {st t : State} {v : Word}
    (h : readWord addr st = .next (v, t)) : SameParams st t :=
  sameParams_of_eq (readWord_frame h) ⟨rfl, rfl⟩

theorem PushFrame.sameParams {st t : State} (h : PushFrame st t) : SameParams st t :=
  sameParams_of_eq h.1 ⟨rfl, rfl⟩

theorem PullFrame.sameParams {st t : State} (h : PullFrame st t) : SameParams st t := by
  obtain ⟨-, hmap, henv, -⟩ := h
  exact ⟨hmap, henv⟩

/-! ## Operand forms and the data operations at the effective address -/

theorem eaIndexed_keepsParams (ix : Indexed) : KeepsParams (eaIndexed ix) := fun _ _ h =>
  sameParams_of_eq (eaIndexed_frame h) ⟨rfl, rfl⟩

theorem KeepsParams.direct {op : State → Result} (hop : KeepsParams op) (lo : Byte) :
    KeepsParams fun st => op (eaDirect lo st) := fun st _ h =>
  have hea : SameParams st (eaDirect lo st) := ⟨rfl, rfl⟩
  hea.trans (hop h)

theorem KeepsParams.extended {op : State → Result} (hop : KeepsParams op) (addr : Word) :
    KeepsParams fun st => op (eaExtended addr st) := fun st _ h =>
  have hea : SameParams st (eaExtended addr st) := ⟨rfl, rfl⟩
  hea.trans (hop h)

theorem KeepsParams.indexed {op : State → Result} (hop : KeepsParams op) (ix : Indexed) :
    KeepsParams fun st => Machine.andThen (eaIndexed ix st) op :=
  (eaIndexed_keepsParams ix).andThen hop

/-- A byte load, whatever it does with the byte as long as that leaves the parameters. -/
theorem loadByteAt_keepsParams (put : State → Byte → State)
    (hput : ∀ st v, SameParams st (put st v) := by exact fun _ _ => ⟨rfl, rfl⟩) :
    KeepsParams (loadByteAt put) := fun st t h => by
  obtain ⟨⟨v, u⟩, hread, hnext⟩ := andThen_eq_next.mp h
  exact sameParams_of_next hnext ((readByte_sameParams hread).trans (hput u v))

/-- A 16-bit load, whatever it does with the value as long as that leaves the parameters. -/
theorem loadWordAt_keepsParams (put : State → Word → State)
    (hput : ∀ st v, SameParams st (put st v) := by exact fun _ _ => ⟨rfl, rfl⟩) :
    KeepsParams (loadWordAt put) := fun st t h => by
  obtain ⟨⟨v, u⟩, hread, hnext⟩ := andThen_eq_next.mp h
  exact sameParams_of_next hnext ((readWord_sameParams hread).trans (hput u v))

theorem storeWordAt_keepsParams (get : State → Word) : KeepsParams (storeWordAt get) := fun st t h => by
  obtain ⟨-, -, rfl⟩ := storeWordAt_eq_next.mp h
  exact ⟨by simp, by simp⟩

theorem shiftLeftAt_keepsParams : KeepsParams shiftLeftAt := fun st t h => by
  obtain ⟨⟨m, u⟩, hread, hrest⟩ := andThen_eq_next.mp h
  obtain ⟨w, hwrite, hnext⟩ := andThen_eq_next.mp hrest
  obtain ⟨-, rfl⟩ := writeByte_eq_next.mp hwrite
  exact sameParams_of_next hnext ((readByte_sameParams hread).trans ⟨by simp, by simp⟩)

/-! ## Branches, transfers, entries, RESET and fetch -/

theorem branchIf_keepsParams (cond : Byte → Bool) (off : Word) : KeepsParams (branchIf cond off) :=
  fun st t h => sameParams_of_next h <| by split <;> exact ⟨rfl, rfl⟩

theorem writeReg_sameParams (st : State) (r : Reg) (v : Word) : SameParams st (st.writeReg r v) :=
  ⟨State.writeReg_map st r v, State.writeReg_env st r v⟩

/-- A register pair of one width is written as `op` says; one of two widths answers no state. -/
theorem whenSameWidth_keepsParams (r1 r2 : Reg) {op : State → State} (hop : ∀ st, SameParams st (op st)) :
    KeepsParams (whenSameWidth r1 r2 op) := fun st t h => by
  unfold whenSameWidth at h
  split at h
  · exact sameParams_of_next h (hop st)
  · cases h

theorem enterException_keepsParams (ev : Event) : KeepsParams (enterException ev) := fun _ _ h =>
  sameParams_of_eq (enterException_frame h).1 ⟨rfl, rfl⟩

theorem execCwai_keepsParams (imm : Byte) : KeepsParams (execCwai imm) := fun st t h => by
  obtain ⟨u, hstack, hnext⟩ := andThen_eq_next.mp h
  have hmasked : SameParams st (State.setFlag { st with cc := st.cc &&& imm } .e true) := ⟨rfl, rfl⟩
  exact sameParams_of_next hnext (hmasked.trans (.trans (stackAll_frame hstack).sameParams ⟨rfl, rfl⟩))

theorem takeVector_keepsParams (ev : Event) : KeepsParams (takeVector ev) := fun st _ h =>
  have hmask : SameParams st (st.maskFor ev) := ⟨State.maskFor_map st ev, State.maskFor_env st ev⟩
  hmask.trans (sameParams_of_eq (jumpToVector_frame h) ⟨rfl, rfl⟩)

theorem resetMachine_keepsParams : KeepsParams resetMachine := fun st t h => by
  obtain ⟨-, -, -, -, -, -, -, hmap, henv⟩ := resetMachine_frame h
  exact ⟨hmap, henv⟩

theorem fetchInstr_sameParams {st t : State} {i : Instr} (h : fetchInstr st = .next (i, t)) :
    SameParams st t :=
  sameParams_of_eq (fetchInstr_frame h) ⟨rfl, rfl⟩

/-! ## Every instruction -/

/-- No instruction changes MemMap or an input to come (R7). -/
theorem exec_keepsParams (i : Instr) : KeepsParams (exec i) := by
  intro st t h
  cases i with
  | nop | sync | daa | abx | asra | clrb | ldaImm _ | ldbImm _ | lddImm _ | ldxImm _ | ldyImm _ | lduImm _ =>
    exact sameParams_of_next h ⟨rfl, rfl⟩
  | rti => exact (returnFromException_frame h).sameParams
  | swi => exact enterException_keepsParams .swi h
  | swi2 => exact enterException_keepsParams .swi2 h
  | swi3 => exact enterException_keepsParams .swi3 h
  | cwai imm => exact execCwai_keepsParams imm h
  | aslDir lo => exact shiftLeftAt_keepsParams.direct lo h
  | aslIdx ix => exact shiftLeftAt_keepsParams.indexed ix h
  | aslExt addr => exact shiftLeftAt_keepsParams.extended addr h
  | ldaDir lo | ldbDir lo => exact (loadByteAt_keepsParams _).direct lo h
  | ldaIdx ix | ldbIdx ix => exact (loadByteAt_keepsParams _).indexed ix h
  | ldaExt addr | ldbExt addr => exact (loadByteAt_keepsParams _).extended addr h
  | lddDir lo | ldxDir lo | ldyDir lo | lduDir lo => exact (loadWordAt_keepsParams _).direct lo h
  | lddIdx ix | ldxIdx ix | ldyIdx ix | lduIdx ix => exact (loadWordAt_keepsParams _).indexed ix h
  | lddExt addr | ldxExt addr | ldyExt addr | lduExt addr => exact (loadWordAt_keepsParams _).extended addr h
  | stdDir lo | stxDir lo | stuDir lo => exact (storeWordAt_keepsParams _).direct lo h
  | stdIdx ix | stxIdx ix | stuIdx ix => exact (storeWordAt_keepsParams _).indexed ix h
  | stdExt addr | stxExt addr | stuExt addr => exact (storeWordAt_keepsParams _).extended addr h
  | leax ix =>
    obtain ⟨u, hea, hnext⟩ := andThen_eq_next.mp h
    exact sameParams_of_next hnext ((eaIndexed_keepsParams ix hea).trans ⟨rfl, rfl⟩)
  | exg r1 r2 =>
    exact whenSameWidth_keepsParams r1 r2
      (fun st => (writeReg_sameParams st _ _).trans (writeReg_sameParams _ _ _)) h
  | tfr r1 r2 => exact whenSameWidth_keepsParams r1 r2 (fun st => writeReg_sameParams st _ _) h
  | pshs list => exact (pushList_frame h).sameParams
  | pulu list => exact (pullList_frame h).sameParams
  | beq _ | bgt _ | lbeq _ | lbgt _ => exact branchIf_keepsParams _ _ h
  | pbOff5 r n => exact eaIndexed_keepsParams (.off5 r n) h
  | pbInc1 r => exact eaIndexed_keepsParams (.inc1 r) h
  | pbInc2 r => exact eaIndexed_keepsParams (.inc2 r) h
  | pbInc2Ind r => exact eaIndexed_keepsParams (.inc2Ind r) h
  | pbDec1 r => exact eaIndexed_keepsParams (.dec1 r) h
  | pbDec2 r => exact eaIndexed_keepsParams (.dec2 r) h
  | pbDec2Ind r => exact eaIndexed_keepsParams (.dec2Ind r) h
  | pbZero r => exact eaIndexed_keepsParams (.zero r) h
  | pbZeroInd r => exact eaIndexed_keepsParams (.zeroInd r) h
  | pbAccB r => exact eaIndexed_keepsParams (.accB r) h
  | pbAccBInd r => exact eaIndexed_keepsParams (.accBInd r) h
  | pbAccA r => exact eaIndexed_keepsParams (.accA r) h
  | pbAccAInd r => exact eaIndexed_keepsParams (.accAInd r) h
  | pbOff8 r n => exact eaIndexed_keepsParams (.off8 r n) h
  | pbOff8Ind r n => exact eaIndexed_keepsParams (.off8Ind r n) h
  | pbOff16 r n => exact eaIndexed_keepsParams (.off16 r n) h
  | pbOff16Ind r n => exact eaIndexed_keepsParams (.off16Ind r n) h
  | pbAccD r => exact eaIndexed_keepsParams (.accD r) h
  | pbAccDInd r => exact eaIndexed_keepsParams (.accDInd r) h
  | pbPcr8 n => exact eaIndexed_keepsParams (.pcr8 n) h
  | pbPcr8Ind n => exact eaIndexed_keepsParams (.pcr8Ind n) h
  | pbPcr16 n => exact eaIndexed_keepsParams (.pcr16 n) h
  | pbPcr16Ind n => exact eaIndexed_keepsParams (.pcr16Ind n) h
  | pbExtInd n => exact eaIndexed_keepsParams (.extInd n) h

/-! ## The step -/

/-- ExecuteOneInstruction leaves the parameters: its fetch does and its instruction does. -/
theorem executeOne_keepsParams : KeepsParams executeOne := fun st t h => by
  obtain ⟨⟨i, u⟩, hfetch, hexec⟩ := andThen_eq_next.mp h
  exact (fetchInstr_sameParams hfetch).trans (exec_keepsParams i hexec)

theorem syncWaitStep_keepsParams (inp : EnvInput) : KeepsParams (syncWaitStep inp) := fun st t h => by
  unfold syncWaitStep at h
  split at h <;> exact sameParams_of_next h ⟨rfl, rfl⟩

theorem cwaiWaitStep_keepsParams (inp : EnvInput) : KeepsParams (cwaiWaitStep inp) := fun st t h => by
  unfold cwaiWaitStep at h
  split at h
  next ev _ =>
    obtain ⟨u, hvector, hnext⟩ := andThen_eq_next.mp h
    have hack : SameParams st (st.acknowledge ev) :=
      ⟨State.acknowledge_map st ev, State.acknowledge_env st ev⟩
    exact sameParams_of_next hnext (hack.trans (.trans (takeVector_keepsParams ev hvector) ⟨rfl, rfl⟩))
  next => exact sameParams_of_next h ⟨rfl, rfl⟩

/-- A look at a boundary leaves the parameters, whichever of its cases applies (R321). -/
theorem boundary_keepsParams {run : State → Result} (hrun : KeepsParams run) (inp : EnvInput) :
    KeepsParams (boundary run inp) := fun st t h => by
  unfold boundary at h
  split at h
  next =>
    split at h
    next ev _ => exact enterException_keepsParams ev h
    next => exact hrun h
  next => exact syncWaitStep_keepsParams inp h
  next => exact cwaiWaitStep_keepsParams inp h

/-- After its own input is used up, a step leaves the parameters: RESET does and the boundary does (R321). -/
theorem step_sameParams {st t : State} (h : step st = .next t) : SameParams st.dropInput t := by
  unfold step stepWith at h
  split at h
  · exact resetMachine_keepsParams h
  · have hlatch : SameParams st.dropInput (st.dropInput.latchNmi st.input) := ⟨by simp, by simp⟩
    exact hlatch.trans (boundary_keepsParams executeOne_keepsParams _ h)

/-- Settles O21: what a step leaves of the parameters is what `dropInput` left of them. -/
theorem noStepChangesMemMapAndEachUsesOneInput : Obligations.NoStepChangesMemMapAndEachUsesOneInput :=
  fun _ _ h => ⟨(step_sameParams h).map, (step_sameParams h).env⟩

end Sys2Proof.Machine
end

section
/-! PROOFS. The postbyte rows among the instructions (log 13). -/

namespace Sys2Proof.Machine

open Sys2Proof.Statements

/-- A postbyte row does the address computation of its form and nothing else. -/
@[simp] theorem exec_postbyteRow (ix : Indexed) (st : State) : exec (postbyteRow ix) st = eaIndexed ix st := by
  cases ix <;> rfl

/-- What is no opcode row is the postbyte row of some form. -/
theorem exists_postbyteRow {i : Instr} (h : i.isOpcodeRow = false) : ∃ ix, i = postbyteRow ix := by
  cases i with
  | pbOff5 r n => exact ⟨.off5 r n, rfl⟩
  | pbInc1 r => exact ⟨.inc1 r, rfl⟩
  | pbInc2 r => exact ⟨.inc2 r, rfl⟩
  | pbInc2Ind r => exact ⟨.inc2Ind r, rfl⟩
  | pbDec1 r => exact ⟨.dec1 r, rfl⟩
  | pbDec2 r => exact ⟨.dec2 r, rfl⟩
  | pbDec2Ind r => exact ⟨.dec2Ind r, rfl⟩
  | pbZero r => exact ⟨.zero r, rfl⟩
  | pbZeroInd r => exact ⟨.zeroInd r, rfl⟩
  | pbAccB r => exact ⟨.accB r, rfl⟩
  | pbAccBInd r => exact ⟨.accBInd r, rfl⟩
  | pbAccA r => exact ⟨.accA r, rfl⟩
  | pbAccAInd r => exact ⟨.accAInd r, rfl⟩
  | pbOff8 r n => exact ⟨.off8 r n, rfl⟩
  | pbOff8Ind r n => exact ⟨.off8Ind r n, rfl⟩
  | pbOff16 r n => exact ⟨.off16 r n, rfl⟩
  | pbOff16Ind r n => exact ⟨.off16Ind r n, rfl⟩
  | pbAccD r => exact ⟨.accD r, rfl⟩
  | pbAccDInd r => exact ⟨.accDInd r, rfl⟩
  | pbPcr8 n => exact ⟨.pcr8 n, rfl⟩
  | pbPcr8Ind n => exact ⟨.pcr8Ind n, rfl⟩
  | pbPcr16 n => exact ⟨.pcr16 n, rfl⟩
  | pbPcr16Ind n => exact ⟨.pcr16Ind n, rfl⟩
  | pbExtInd n => exact ⟨.extInd n, rfl⟩
  | _ => cases h

/-- What is no opcode row does the address computation of some form (log 13). -/
theorem exec_of_not_opcodeRow {i : Instr} (h : i.isOpcodeRow = false) :
    ∃ ix, ∀ st, exec i st = eaIndexed ix st := by
  obtain ⟨ix, rfl⟩ := exists_postbyteRow h
  exact ⟨ix, exec_postbyteRow ix⟩

end Sys2Proof.Machine
end

section
/-! PROOFS. The state after reset (R35, R351). -/

namespace Sys2Proof.Machine

/-- Settles O19: memory is empty, no NMI is latched and no wait has begun. -/
theorem resetMeetsTheInvariant : Obligations.ResetMeetsTheInvariant where
  memory := reset_memory_wf
  latch := fun h => nomatch h
  waiting := fun h => nomatch h

/-- Settles O20: each value is the one `State.reset` writes; the vector lies in empty memory. -/
theorem resetStateHoldsTheValuesTheSpecGives : Obligations.ResetStateHoldsTheValuesTheSpecGives :=
  ⟨rfl, rfl, rfl, rfl, rfl, rfl, rfl⟩

end Sys2Proof.Machine
end

section
/-! PROOFS. What every instruction changes and what it leaves, said once as `InstrEffect`: memory (R34), DP
(R29), the flags (R28), the NMI latch and the run state (R33). The statements about these parts of the state
are its fields. -/

namespace Sys2Proof.Machine

open Sys2Proof.Statements

/-! ## The flags of an entry, and what a register write leaves -/

theorem getFlag_setFlagIf (st : State) (fl g : Flag) (c : Bool) :
    getFlag (if c then st.setFlag fl true else st).cc g = (g == fl && c || getFlag st.cc g) := by
  cases c with
  | false => simp
  | true => by_cases h : g = fl <;> simp [getFlag_putFlag, h]

/-- An entry sets the masks of its row and keeps every other flag (R312). -/
theorem getFlag_maskFor (st : State) (ev : Event) (g : Flag) :
    getFlag (st.maskFor ev).cc g = (g == .i && ev.setsI || g == .f && ev.setsF || getFlag st.cc g) := by
  unfold State.maskFor
  rw [getFlag_setFlagIf, getFlag_setFlagIf, Bool.or_assoc]

theorem State.writeReg_dp_of_ne {r : Reg} (h : r ≠ .dp) (st : State) (v : Word) :
    (st.writeReg r v).dp = st.dp := by
  cases r with
  | dp => exact absurd rfl h
  | _ => rfl

theorem State.writeReg_cc_of_ne {r : Reg} (h : r ≠ .cc) (st : State) (v : Word) :
    (st.writeReg r v).cc = st.cc := by
  cases r with
  | cc => exact absurd rfl h
  | _ => rfl

/-! ## What an operation may change -/

/-- The step from `st` to `t` leaves DP, the NMI latch and the run state, does to each flag what `row` says,
and leaves memory unless it stores. -/
structure Effect (row : Flag → FlagEntry) (stores : Bool) (st t : State) : Prop where
  mem : stores = false → t.mem = st.mem
  dp : t.dp = st.dp
  nmiPending : t.nmiPending = st.nmiPending
  runState : t.runState = st.runState
  flags : ∀ g, (row g).Allows st.cc t.cc g

/-- The operation has this effect wherever it answers a state. -/
def HasEffect (row : Flag → FlagEntry) (stores : Bool) (op : State → Result) : Prop :=
  ∀ ⦃st t : State⦄, op st = .next t → Effect row stores st t

/-- The row of an instruction that changes no flag. -/
def keptRow (_ : Flag) : FlagEntry := .kept

/-- The row of a load or store: V cleared, N and Z by the value (R211). -/
def moveRow (g : Flag) : FlagEntry := if g = .v then .forced false else keptBut [.n, .z] g

/-- What follows an operation that keeps every flag has the effect of the whole. -/
theorem Effect.after {row : Flag → FlagEntry} {stores : Bool} {st u t : State}
    (h0 : Effect keptRow stores st u) (h : Effect row stores u t) : Effect row stores st t where
  mem hs := (h.mem hs).trans (h0.mem hs)
  dp := h.dp.trans h0.dp
  nmiPending := h.nmiPending.trans h0.nmiPending
  runState := h.runState.trans h0.runState
  flags g := by
    have hkept : getFlag u.cc g = getFlag st.cc g := h0.flags g
    have hrow := h.flags g
    generalize row g = entry at hrow ⊢
    cases entry with
    | kept => exact Eq.trans hrow hkept
    | forced v => exact hrow
    | byRule => trivial

theorem effect_of_next {row : Flag → FlagEntry} {stores : Bool} {st t u : State}
    (h : (Host.Outcome.next u : Result) = .next t) (hu : Effect row stores st u) :
    Effect row stores st t := by
  cases h
  exact hu

/-- An update of CC and of parts of the state that `Effect` says nothing of. -/
theorem effect_of_flags {row : Flag → FlagEntry} {stores : Bool} {st t : State}
    (hflags : ∀ g, (row g).Allows st.cc t.cc g)
    (hrest : t.mem = st.mem ∧ t.dp = st.dp ∧ t.nmiPending = st.nmiPending ∧
      t.runState = st.runState := by exact ⟨rfl, rfl, rfl, rfl⟩) : Effect row stores st t := by
  obtain ⟨hmem, hdp, hlatch, hrun⟩ := hrest
  exact ⟨fun _ => hmem, hdp, hlatch, hrun, hflags⟩

/-! ## The flag rows -/

theorem moveFlags8_allowed (v cc : Byte) (g : Flag) : (moveRow g).Allows cc (moveFlags8 v cc) g := by
  cases g with
  | n | z => trivial
  | _ => exact getFlag_moveFlags8 v cc _

theorem moveFlags16_allowed (v : Word) (cc : Byte) (g : Flag) :
    (moveRow g).Allows cc (moveFlags16 v cc) g := by
  cases g with
  | n | z => trivial
  | _ => exact getFlag_moveFlags16 v cc _

theorem leaFlags_allowed (ea : Word) (cc : Byte) (g : Flag) :
    (keptBut [.z] g).Allows cc (leaFlags ea cc) g := by
  cases g with
  | z => trivial
  | _ => exact getFlag_leaFlags ea cc _

theorem aslFlags_allowed (m cc : Byte) (free : Bool) (g : Flag) :
    (keptBut [.h, .n, .z, .v, .c] g).Allows cc (aslFlags m free cc) g := by
  cases g with
  | h | n | z | v | c => trivial
  | _ => exact getFlag_aslFlags m cc free _

theorem asrFlags_allowed (a cc : Byte) (free : Bool) (g : Flag) :
    (keptBut [.h, .n, .z, .c] g).Allows cc (asrFlags a free cc) g := by
  cases g with
  | h | n | z | c => trivial
  | _ => exact getFlag_asrFlags a cc free _

theorem daaFlags_allowed (a cc : Byte) (free : Bool) (g : Flag) :
    (keptBut [.n, .z, .v, .c] g).Allows cc (daaFlags a free cc) g := by
  cases g with
  | n | z | v | c => trivial
  | _ => exact getFlag_daaFlags a cc free _

theorem clrFlags_allowed (cc : Byte) (g : Flag) : (flagTable g .clrb).Allows cc (clrFlags cc) g := by
  cases g <;> exact getFlag_clrFlags cc _

/-! ## Reads, address computations and pushes keep every flag -/

theorem readByte_effect {addr : Word} {st t : State} {v : Byte} (stores : Bool)
    (h : readByte addr st = .next (v, t)) : Effect keptRow stores st t := by
  rw [readByte_frame h]
  exact effect_of_flags fun _ => rfl

theorem readWord_effect {addr : Word} {st t : State} {v : Word} (stores : Bool)
    (h : readWord addr st = .next (v, t)) : Effect keptRow stores st t := by
  rw [readWord_frame h]
  exact effect_of_flags fun _ => rfl

theorem AddressFrame.effect {st t : State} (stores : Bool) (h : AddressFrame st t) :
    Effect keptRow stores st t := by
  rw [h]
  exact effect_of_flags fun _ => rfl

theorem PushFrame.effect {st t : State} (h : PushFrame st t) : Effect keptRow true st t := by
  rw [h.1]
  exact ⟨nofun, rfl, rfl, rfl, fun _ => rfl⟩

theorem State.store_effect (st : State) (addr : Word) (v : Byte) :
    Effect keptRow true st (st.store addr v) := by
  rw [st.store_eq addr v]
  exact ⟨nofun, rfl, rfl, rfl, fun _ => rfl⟩

theorem eaIndexed_effect (ix : Indexed) (stores : Bool) : HasEffect keptRow stores (eaIndexed ix) :=
  fun _ _ h => (eaIndexed_frame h).effect stores

/-! ## The three modes of an operand in memory -/

theorem HasEffect.direct {row : Flag → FlagEntry} {stores : Bool} {op : State → Result}
    (hop : HasEffect row stores op) (lo : Byte) : HasEffect row stores fun st => op (eaDirect lo st) :=
  fun st _ h => .after (u := eaDirect lo st) (effect_of_flags fun _ => rfl) (hop h)

theorem HasEffect.extended {row : Flag → FlagEntry} {stores : Bool} {op : State → Result}
    (hop : HasEffect row stores op) (addr : Word) :
    HasEffect row stores fun st => op (eaExtended addr st) :=
  fun st _ h => .after (u := eaExtended addr st) (effect_of_flags fun _ => rfl) (hop h)

theorem HasEffect.indexed {row : Flag → FlagEntry} {stores : Bool} {op : State → Result}
    (hop : HasEffect row stores op) (ix : Indexed) :
    HasEffect row stores fun st => andThen (eaIndexed ix st) op := fun st t h => by
  obtain ⟨u, hea, hrest⟩ := andThen_eq_next.mp h
  exact .after (eaIndexed_effect ix stores hea) (hop hrest)

/-! ## The data operations at the effective address -/

/-- An 8-bit load, whatever register takes the byte. -/
theorem loadByteAt_effect (put : State → Byte → State)
    (hput : ∀ st v, Effect moveRow false st (put st v) := by
      exact fun st v => effect_of_flags (moveFlags8_allowed v st.cc)) :
    HasEffect moveRow false (loadByteAt put) := fun st t h => by
  obtain ⟨⟨v, u⟩, hread, hnext⟩ := andThen_eq_next.mp h
  exact effect_of_next hnext ((readByte_effect false hread).after (hput u v))

/-- A 16-bit load, whatever register takes the value. -/
theorem loadWordAt_effect (put : State → Word → State)
    (hput : ∀ st v, Effect moveRow false st (put st v) := by
      exact fun st v => effect_of_flags (moveFlags16_allowed v st.cc)) :
    HasEffect moveRow false (loadWordAt put) := fun st t h => by
  obtain ⟨⟨v, u⟩, hread, hnext⟩ := andThen_eq_next.mp h
  exact effect_of_next hnext ((readWord_effect false hread).after (hput u v))

theorem storeWordAt_effect (get : State → Word) : HasEffect moveRow true (storeWordAt get) :=
  fun st t h => by
    obtain ⟨-, -, rfl⟩ := storeWordAt_eq_next.mp h
    exact ⟨nofun, by simp, by simp, by simp, moveFlags16_allowed _ _⟩

theorem shiftLeftAt_effect : HasEffect (keptBut [.h, .n, .z, .v, .c]) true shiftLeftAt := fun st t h => by
  obtain ⟨⟨m, u⟩, hread, hrest⟩ := andThen_eq_next.mp h
  obtain ⟨w, hwrite, hnext⟩ := andThen_eq_next.mp hrest
  obtain ⟨-, rfl⟩ := writeByte_eq_next.mp hwrite
  exact effect_of_next hnext <| (readByte_effect true hread).after <| (u.store_effect _ _).after <|
    effect_of_flags (aslFlags_allowed m _ _)

/-! ## Branches and entries -/

theorem branchIf_effect (cond : Byte → Bool) (off : Word) : HasEffect keptRow false (branchIf cond off) :=
  fun st t h => effect_of_next h <| by split <;> exact effect_of_flags fun _ => rfl

/-- An entry's CC is the old one with E as the event says and its masks set; the NMI latch is left as
acknowledging the event leaves it (R312, R317, R324 to R326). -/
theorem enterException_cc_nmiPending {ev : Event} {st t : State} (h : enterException ev st = .next t) :
    t.cc = (((st.acknowledge ev).setFlag .e ev.entire).maskFor ev).cc ∧
      t.nmiPending = (st.acknowledge ev).nmiPending := by
  obtain ⟨u, hstack, hvector⟩ := andThen_eq_next.mp h
  have hpush : PushFrame ((st.acknowledge ev).setFlag .e ev.entire) u := by
    split at hstack
    · exact stackAll_frame hstack
    · exact stackFast_frame hstack
  rw [jumpToVector_frame hvector, hpush.1]
  cases ev <;> exact ⟨rfl, rfl⟩

/-- Every flag after an entry: E by what is stacked, I and F by the masks, the rest kept (R312). -/
theorem getFlag_enterException {ev : Event} {st t : State} (g : Flag)
    (h : enterException ev st = .next t) :
    getFlag t.cc g =
      (g == .i && ev.setsI || g == .f && ev.setsF || if g = .e then ev.entire else getFlag st.cc g) := by
  rw [(enterException_cc_nmiPending h).1, getFlag_maskFor, State.setFlag_cc, getFlag_putFlag, State.acknowledge_cc]

/-- A software interrupt: the row of its event, the latch kept (R291 to R293, R312). -/
theorem enterException_effect {ev : Event} {row : Flag → FlagEntry} (hev : ev ≠ .nmi)
    (hrow : ∀ g old new, getFlag new g = (g == .i && ev.setsI || g == .f && ev.setsF ||
      if g = .e then ev.entire else getFlag old g) → (row g).Allows old new g) :
    HasEffect row true (enterException ev) := fun st t h => by
  have hlatch : (st.acknowledge ev).nmiPending = st.nmiPending := by
    cases ev with
    | nmi => exact absurd rfl hev
    | _ => rfl
  have hframe := (enterException_frame h).1
  exact {
    mem := nofun
    dp := by rw [hframe]
    nmiPending := (enterException_cc_nmiPending h).2.trans hlatch
    runState := by rw [hframe]
    flags := fun g => hrow g _ _ (getFlag_enterException g h) }

/-! ## Pulls -/

/-- `f` reads no part of the state but DP and CC. -/
def ReadsDpCcOnly {α : Type} (f : State → α) : Prop :=
  ∀ ⦃st t : State⦄, t.dp = st.dp → t.cc = st.cc → f t = f st

/-- The operation leaves the part `f` of the state wherever it answers one. -/
def Keeps {α : Type} (f : State → α) (op : State → Result) : Prop :=
  ∀ ⦃st t : State⦄, op st = .next t → f t = f st

section
variable {α : Type} {f : State → α}

theorem Keeps.andThen {op g : State → Result} (hop : Keeps f op) (hg : Keeps f g) :
    Keeps f fun st => andThen (op st) g := fun st t h => by
  obtain ⟨u, h0, h1⟩ := andThen_eq_next.mp h
  exact (hg h1).trans (hop h0)

theorem Keeps.opIf {c : Bool} {op : State → Result} (hop : c = true → Keeps f op) :
    Keeps f (opIf c op) := fun st t h => by
  rcases opIf_eq_next.mp h with ⟨hc, h⟩ | ⟨-, rfl⟩
  · exact hop hc h
  · rfl

theorem pullByteTo_keeps (hf : ReadsDpCcOnly f) {k : Stack} {put : State → Byte → State}
    (hput : ∀ st v, f (put st v) = f st) : Keeps f (pullByteTo k put) := fun st t h => by
  obtain ⟨⟨v, u⟩, hpull, hnext⟩ := andThen_eq_next.mp h
  cases hnext
  rw [hput, pullByte_frame hpull]
  exact hf (by simp) (by simp)

theorem pullWordTo_keeps (hf : ReadsDpCcOnly f) {k : Stack} {put : State → Word → State}
    (hput : ∀ st v, f (put st v) = f st) : Keeps f (pullWordTo k put) := fun st t h => by
  obtain ⟨⟨v, u⟩, hpull, hnext⟩ := andThen_eq_next.mp h
  cases hnext
  rw [hput, pullWord_frame hpull]
  exact hf (by simp) (by simp)

/-- PULU leaves DP and CC as far as the list does not name them (R259). -/
theorem pullList_keeps {list : Byte} (hf : ReadsDpCcOnly f)
    (hcc : list.getLsbD 0 = true → ∀ (st : State) v, f { st with cc := v } = f st)
    (hdp : list.getLsbD 3 = true → ∀ (st : State) v, f { st with dp := v } = f st) :
    Keeps f (pullList list) := by
  refine (Keeps.opIf fun hb => pullByteTo_keeps hf (hcc hb)).andThen <|
    (Keeps.opIf fun _ => pullByteTo_keeps hf ?_).andThen <|
    (Keeps.opIf fun _ => pullByteTo_keeps hf ?_).andThen <|
    (Keeps.opIf fun hb => pullByteTo_keeps hf (hdp hb)).andThen <|
    (Keeps.opIf fun _ => pullWordTo_keeps hf ?_).andThen <|
    (Keeps.opIf fun _ => pullWordTo_keeps hf ?_).andThen <|
    (Keeps.opIf fun _ => pullWordTo_keeps hf ?_).andThen <|
    Keeps.opIf fun _ => pullWordTo_keeps hf ?_
  all_goals exact fun st v => hf rfl rfl

end

/-- PULU leaves DP unless the list names it (R259). -/
theorem pullList_keeps_dp {list : Byte} (h : list.getLsbD 3 = false) : Keeps State.dp (pullList list) :=
  pullList_keeps (fun _ _ hdp _ => hdp) (fun _ _ _ => rfl) fun hlisted => by
    rw [h] at hlisted
    cases hlisted

/-- PULU leaves CC unless the list names it (R259). -/
theorem pullList_keeps_cc {list : Byte} (h : list.getLsbD 0 = false) : Keeps State.cc (pullList list) :=
  pullList_keeps (fun _ _ _ hcc => hcc)
    (fun hlisted => by
      rw [h] at hlisted
      cases hlisted)
    (fun _ _ _ => rfl)

/-! ## Every instruction -/

/-- What the step of an instruction does to memory, DP, the flags, the NMI latch and the run state. -/
structure InstrEffect (i : Instr) (st t : State) : Prop where
  mem : canStore i = false → t.mem = st.mem
  dp : ¬ canWriteDp i → t.dp = st.dp
  flags : ∀ g, (flagTable g i).Allows st.cc t.cc g
  nmiPending : t.nmiPending = st.nmiPending
  runState : i = .sync ∧ t.runState = .syncWait ∨ (∃ imm, i = .cwai imm) ∧ t.runState = .cwaiWait ∨
    i ≠ .sync ∧ (∀ imm, i ≠ .cwai imm) ∧ t.runState = st.runState

/-- An instruction that begins no wait, and neither pulls nor transfers into DP or CC. -/
theorem InstrEffect.of_effect {i : Instr} {st t : State}
    (h : Effect (fun g => flagTable g i) (canStore i) st t)
    (hsync : i ≠ .sync := by nofun) (hcwai : ∀ imm, i ≠ .cwai imm := by nofun) : InstrEffect i st t where
  mem := h.mem
  dp _ := h.dp
  flags := h.flags
  nmiPending := h.nmiPending
  runState := .inr (.inr ⟨hsync, hcwai, h.runState⟩)

theorem execTfr_effect {r1 r2 : Reg} {st t : State} (h : execTfr r1 r2 st = .next t) :
    InstrEffect (.tfr r1 r2) st t := by
  unfold execTfr whenSameWidth at h
  split at h
  case isFalse => cases h
  cases h
  exact {
    mem := fun _ => State.writeReg_mem st r2 _
    dp := fun hno => State.writeReg_dp_of_ne (fun e => hno (.inl ⟨r1, by rw [e]⟩)) st _
    flags := fun g => by
      simp only [flagTable]
      split
      · trivial
      · exact congrArg (getFlag · g) (State.writeReg_cc_of_ne ‹_› st _)
    nmiPending := State.writeReg_nmiPending st r2 _
    runState := .inr (.inr ⟨nofun, nofun, State.writeReg_runState st r2 _⟩) }

theorem execExg_effect {r1 r2 : Reg} {st t : State} (h : execExg r1 r2 st = .next t) :
    InstrEffect (.exg r1 r2) st t := by
  unfold execExg whenSameWidth at h
  split at h
  case isFalse => cases h
  cases h
  exact {
    mem := fun _ => (State.writeReg_mem _ r2 _).trans (State.writeReg_mem st r1 _)
    dp := fun hno =>
      (State.writeReg_dp_of_ne (fun e => hno (.inr (.inl ⟨r1, by rw [e]⟩))) _ _).trans
        (State.writeReg_dp_of_ne (fun e => hno (.inr (.inr (.inl ⟨r2, by rw [e]⟩)))) st _)
    flags := fun g => by
      simp only [flagTable]
      split
      case isTrue => trivial
      case isFalse hcc =>
        obtain ⟨h1, h2⟩ := not_or.mp hcc
        exact congrArg (getFlag · g)
          ((State.writeReg_cc_of_ne h2 _ _).trans (State.writeReg_cc_of_ne h1 st _))
    nmiPending := (State.writeReg_nmiPending _ r2 _).trans (State.writeReg_nmiPending st r1 _)
    runState := .inr (.inr ⟨nofun, nofun,
      (State.writeReg_runState _ r2 _).trans (State.writeReg_runState st r1 _)⟩) }

theorem pullList_effect {list : Byte} {st t : State} (h : pullList list st = .next t) :
    InstrEffect (.pulu list) st t := by
  obtain ⟨hmem, -, -, -, hrun, hlatch, -⟩ := pullList_frame h
  exact {
    mem := fun _ => hmem
    dp := fun hno => by
      refine pullList_keeps_dp (Bool.eq_false_iff.mpr fun hlisted => hno ?_) h
      exact .inr (.inr (.inr (.inl ⟨list, rfl, hlisted⟩)))
    flags := fun g => by
      simp only [flagTable]
      split
      · trivial
      · exact congrArg (getFlag · g) (pullList_keeps_cc (Bool.eq_false_iff.mpr ‹_›) h)
    nmiPending := hlatch
    runState := .inr (.inr ⟨nofun, nofun, hrun⟩) }

theorem returnFromException_effect {st t : State} (h : returnFromException st = .next t) :
    InstrEffect .rti st t := by
  obtain ⟨hmem, -, -, -, hrun, hlatch, -⟩ := returnFromException_frame h
  exact {
    mem := fun _ => hmem
    dp := fun hno => absurd (.inr (.inr (.inr (.inr rfl)))) hno
    flags := fun _ => trivial
    nmiPending := hlatch
    runState := .inr (.inr ⟨nofun, nofun, hrun⟩) }

theorem execCwai_effect {imm : Byte} {st t : State} (h : execCwai imm st = .next t) :
    InstrEffect (.cwai imm) st t := by
  obtain ⟨u, hstack, hnext⟩ := andThen_eq_next.mp h
  cases hnext
  have hpush := (stackAll_frame hstack).effect
  exact {
    mem := nofun
    dp := fun _ => hpush.dp
    flags := fun g => by
      cases g with
      | e => exact (hpush.flags .e).trans (getFlag_putFlag_same _ .e true)
      | _ => trivial
    nmiPending := hpush.nmiPending
    runState := .inr (.inl ⟨⟨imm, rfl⟩, rfl⟩) }

theorem execSync_effect {st t : State} (h : execSync st = .next t) : InstrEffect .sync st t := by
  cases h
  exact ⟨fun _ => rfl, fun _ => rfl, fun _ => rfl, rfl, .inl ⟨rfl, rfl⟩⟩

/-- The effect of every instruction (R28, R29, R33, R34). -/
theorem exec_effect {i : Instr} {st t : State} (h : exec i st = .next t) : InstrEffect i st t := by
  have hpostbyte := @exec_of_not_opcodeRow i
  cases i with
  | nop | abx => exact .of_effect (effect_of_next h (effect_of_flags fun _ => rfl))
  | sync => exact execSync_effect h
  | daa => exact .of_effect (effect_of_next h (effect_of_flags (daaFlags_allowed st.a st.cc _)))
  | asra => exact .of_effect (effect_of_next h (effect_of_flags (asrFlags_allowed st.a st.cc _)))
  | clrb => exact .of_effect (effect_of_next h (effect_of_flags (clrFlags_allowed st.cc)))
  | rti => exact returnFromException_effect h
  | swi => exact .of_effect (enterException_effect (by decide) (fun g _ _ e => by cases g <;> exact e) h)
  | swi2 => exact .of_effect (enterException_effect (by decide) (fun g _ _ e => by cases g <;> exact e) h)
  | swi3 => exact .of_effect (enterException_effect (by decide) (fun g _ _ e => by cases g <;> exact e) h)
  | cwai imm => exact execCwai_effect h
  | aslDir lo => exact .of_effect (shiftLeftAt_effect.direct lo h)
  | aslIdx ix => exact .of_effect (shiftLeftAt_effect.indexed ix h)
  | aslExt addr => exact .of_effect (shiftLeftAt_effect.extended addr h)
  | ldaImm v | ldbImm v => exact .of_effect (effect_of_next h (effect_of_flags (moveFlags8_allowed v st.cc)))
  | lddImm v | ldxImm v | ldyImm v | lduImm v =>
    exact .of_effect (effect_of_next h (effect_of_flags (moveFlags16_allowed v st.cc)))
  | ldaDir lo | ldbDir lo => exact .of_effect ((loadByteAt_effect _).direct lo h)
  | ldaIdx ix | ldbIdx ix => exact .of_effect ((loadByteAt_effect _).indexed ix h)
  | ldaExt addr | ldbExt addr => exact .of_effect ((loadByteAt_effect _).extended addr h)
  | lddDir lo | ldxDir lo | ldyDir lo | lduDir lo => exact .of_effect ((loadWordAt_effect _).direct lo h)
  | lddIdx ix | ldxIdx ix | ldyIdx ix | lduIdx ix => exact .of_effect ((loadWordAt_effect _).indexed ix h)
  | lddExt addr | ldxExt addr | ldyExt addr | lduExt addr =>
    exact .of_effect ((loadWordAt_effect _).extended addr h)
  | stdDir lo | stxDir lo | stuDir lo => exact .of_effect ((storeWordAt_effect _).direct lo h)
  | stdIdx ix | stxIdx ix | stuIdx ix => exact .of_effect ((storeWordAt_effect _).indexed ix h)
  | stdExt addr | stxExt addr | stuExt addr => exact .of_effect ((storeWordAt_effect _).extended addr h)
  | leax ix =>
    obtain ⟨u, hea, hnext⟩ := andThen_eq_next.mp h
    exact .of_effect <| effect_of_next hnext <| (eaIndexed_effect ix false hea).after <|
      effect_of_flags (leaFlags_allowed u.temp u.cc)
  | exg r1 r2 => exact execExg_effect h
  | tfr r1 r2 => exact execTfr_effect h
  | pshs list => exact .of_effect (pushList_frame h).effect
  | pulu list => exact pullList_effect h
  | beq _ | bgt _ | lbeq _ | lbgt _ => exact .of_effect (branchIf_effect _ _ h)
  | pbOff5 _ _ | pbInc1 _ | pbInc2 _ | pbInc2Ind _ | pbDec1 _ | pbDec2 _ | pbDec2Ind _ | pbZero _
  | pbZeroInd _ | pbAccB _ | pbAccBInd _ | pbAccA _ | pbAccAInd _ | pbOff8 _ _ | pbOff8Ind _ _
  | pbOff16 _ _ | pbOff16Ind _ _ | pbAccD _ | pbAccDInd _ | pbPcr8 _ | pbPcr8Ind _ | pbPcr16 _
  | pbPcr16Ind _ | pbExtInd _ =>
    obtain ⟨ix, hix⟩ := hpostbyte rfl
    exact .of_effect (eaIndexed_effect ix false ((hix st).symm.trans h))

/-! ## The statements -/

/-- Settles O17: memory's part of the effect of an instruction. -/
theorem instructionsThatStoreNothingLeaveMemory : Obligations.InstructionsThatStoreNothingLeaveMemory :=
  fun _ _ _ hstore h => (exec_effect h).mem hstore

/-- Settles O23: DP's part of the effect of an instruction. -/
theorem onlyTransfersPullsAndRtiWriteTheDirectPage :
    Obligations.OnlyTransfersPullsAndRtiWriteTheDirectPage :=
  fun _ _ _ h hno => (exec_effect h).dp hno

/-- Settles O26: the hidden registers' part of the effect of an instruction. -/
theorem onlySyncAndCwaiBeginAWait : Obligations.OnlySyncAndCwaiBeginAWait :=
  fun _ _ _ h => ⟨(exec_effect h).nmiPending, (exec_effect h).runState⟩

/-- Settles O25: the rows of the instructions, and the flags of an entry event by event. -/
theorem flagsChangeAsTheTableSays : Obligations.FlagsChangeAsTheTableSays := by
  refine ⟨fun i st t g h => (exec_effect h).flags g, fun ev st t g h => ?_⟩
  rw [getFlag_enterException g h]
  cases g with
  | e | i | f => cases ev <;> rfl
  | _ => rfl

/-- The table keeps the masks for every instruction that R28 and R319 do not list. -/
theorem flagTable_mask_kept {i : Instr} {g : Flag} (hg : g = .i ∨ g = .f) (hno : ¬ canChangeMasks i) :
    flagTable g i = .kept := by
  cases i with
  | tfr r1 r2 =>
    simp only [flagTable]
    rw [if_neg fun e => hno (.inl ⟨r1, by rw [e]⟩)]
  | exg r1 r2 =>
    simp only [flagTable]
    rw [if_neg]
    rintro (e | e)
    · exact hno (.inr (.inr (.inl ⟨r2, by rw [e]⟩)))
    · exact hno (.inr (.inl ⟨r1, by rw [e]⟩))
  | pulu list =>
    simp only [flagTable]
    rw [if_neg fun hlisted => hno (.inr (.inr (.inr (.inl ⟨list, rfl, hlisted⟩))))]
  | rti => exact absurd (.inr (.inr (.inr (.inr (.inl rfl))))) hno
  | cwai imm => exact absurd (.inr (.inr (.inr (.inr (.inr (.inl ⟨imm, rfl⟩)))))) hno
  | swi => exact absurd (.inr (.inr (.inr (.inr (.inr (.inr rfl)))))) hno
  | _ => rcases hg with rfl | rfl <;> rfl

/-- Settles O24, by the table of flags: it keeps both masks wherever they are not listed. -/
theorem onlyListedInstructionsChangeTheMasks : Obligations.OnlyListedInstructionsChangeTheMasks := by
  intro i st t h hno
  have hflags := (exec_effect h).flags
  have hi := hflags .i
  have hf := hflags .f
  rw [flagTable_mask_kept (.inl rfl) hno] at hi
  rw [flagTable_mask_kept (.inr rfl) hno] at hf
  exact ⟨hi, hf⟩

end Sys2Proof.Machine
end

section
/-! PROOFS. The holding register is never observed (R20, R32; log 12). Every operation either computes
an effective address, and then writes the register before anything reads it, or commutes with a write of
it. -/

namespace Sys2Proof.Machine

/-! ## Operations that commute with a write of the holding register -/

/-- The operation neither reads nor writes the holding register. -/
def IgnoresTemp (op : State → Result) : Prop :=
  ∀ (w : Word) (st : State), op (st.hold w) = andThen (op st) fun t => .next (t.hold w)

/-- The operation neither reads nor writes the holding register, and what it answers beside the state does
not depend on it. -/
def ReadIgnoresTemp {α : Type} (op : State → Outcome (α × State)) : Prop :=
  ∀ (w : Word) (st : State), op (st.hold w) = andThen (op st) fun p => .next (p.1, p.2.hold w)

section
variable {α β : Type} {op f : State → Result} {read : State → Outcome (α × State)}

theorem IgnoresTemp.andThen (hop : IgnoresTemp op) (hf : IgnoresTemp f) :
    IgnoresTemp fun st => andThen (op st) f := fun w st => by
  simp only [hop w st, andThen_assoc, andThen_next, hf w]

theorem ReadIgnoresTemp.andThen {f : α × State → Result} (hread : ReadIgnoresTemp read)
    (hf : ∀ v, IgnoresTemp fun st => f (v, st)) : IgnoresTemp fun st => andThen (read st) f :=
  fun w st => by simp only [hread w st, andThen_assoc, andThen_next, fun p : α × State => hf p.1 w p.2]

theorem ReadIgnoresTemp.andThenRead {f : α × State → Outcome (β × State)} (hread : ReadIgnoresTemp read)
    (hf : ∀ v, ReadIgnoresTemp fun st => f (v, st)) : ReadIgnoresTemp fun st => Machine.andThen (read st) f :=
  fun w st => by simp only [hread w st, andThen_assoc, andThen_next, fun p : α × State => hf p.1 w p.2]

theorem IgnoresTemp.opIf (c : Bool) (hop : IgnoresTemp op) : IgnoresTemp (opIf c op) := by
  cases c with
  | true => exact hop
  | false => exact fun _ _ => rfl

/-- An update of other parts of the state. -/
theorem ignoresTemp_update {f : State → State}
    (hf : ∀ st w, f (st.hold w) = (f st).hold w := by exact fun _ _ => rfl) :
    IgnoresTemp fun st => .next (f st) := fun w st => congrArg Host.Outcome.next (hf st w)

/-- An operation after an update of other parts of the state. -/
theorem IgnoresTemp.after (hop : IgnoresTemp op) {f : State → State}
    (hf : ∀ st w, f (st.hold w) = (f st).hold w := by exact fun _ _ => rfl) :
    IgnoresTemp fun st => op (f st) := fun w st => by
  dsimp only
  rw [hf]
  exact hop w (f st)

/-- An operation on a value read from other parts of the state. -/
theorem IgnoresTemp.of {op : β → State → Result} (hop : ∀ v, IgnoresTemp (op v)) {get : State → β}
    (hget : ∀ st w, get (st.hold w) = get st := by exact fun _ _ => rfl) :
    IgnoresTemp fun st => op (get st) st := fun w st => by
  dsimp only
  rw [hget]
  exact hop (get st) w st

theorem ReadIgnoresTemp.of {op : β → State → Outcome (α × State)} (hop : ∀ v, ReadIgnoresTemp (op v))
    {get : State → β} (hget : ∀ st w, get (st.hold w) = get st := by exact fun _ _ => rfl) :
    ReadIgnoresTemp fun st => op (get st) st := fun w st => by
  dsimp only
  rw [hget]
  exact hop (get st) w st

end

/-! ## Memory and the stacks -/

@[simp] theorem State.hold_kindAt (st : State) (w addr : Word) : (st.hold w).kindAt addr = st.kindAt addr :=
  rfl

theorem readByte_ignoresTemp (addr : Word) : ReadIgnoresTemp (readByte addr) := fun w st => by
  simp only [readByte, State.hold_kindAt]
  cases st.kindAt addr <;> rfl

theorem readWord_ignoresTemp (addr : Word) : ReadIgnoresTemp (readWord addr) :=
  (readByte_ignoresTemp addr).andThenRead fun high => (readByte_ignoresTemp (addr + 1#16)).andThenRead
    (f := fun low => .next (joinBytes high low.1, low.2)) fun _ _ _ => rfl

theorem State.store_hold (st : State) (w addr : Word) (v : Byte) :
    (st.hold w).store addr v = (st.store addr v).hold w := by
  simp only [State.store, State.hold_kindAt]
  cases st.kindAt addr <;> rfl

theorem writeByte_ignoresTemp (addr : Word) (v : Byte) : IgnoresTemp (writeByte addr v) := fun w st => by
  simp only [writeByte, State.hold_kindAt, State.store_hold]
  cases st.kindAt addr <;> rfl

@[simp] theorem State.hold_sp (st : State) (w : Word) (k : Stack) : (st.hold w).sp k = st.sp k := by
  cases k <;> rfl

theorem State.setSp_hold (st : State) (w v : Word) (k : Stack) :
    (st.hold w).setSp k v = (st.setSp k v).hold w := by
  cases k <;> rfl

theorem pushByte_ignoresTemp (k : Stack) (v : Byte) : IgnoresTemp (pushByte k v) :=
  .of (op := fun sp st => writeByte (sp - 1#16) v (st.setSp k (sp - 1#16))) (get := (State.sp · k))
    (fun sp => (writeByte_ignoresTemp (sp - 1#16) v).after fun st w => st.setSp_hold w (sp - 1#16) k)
    fun st w => st.hold_sp w k

theorem pushWord_ignoresTemp (k : Stack) (v : Word) : IgnoresTemp (pushWord k v) :=
  (pushByte_ignoresTemp k (lowByte v)).andThen (pushByte_ignoresTemp k (highByte v))

theorem pullByte_ignoresTemp (k : Stack) : ReadIgnoresTemp (pullByte k) :=
  .andThenRead (.of readByte_ignoresTemp fun st w => st.hold_sp w k) fun _ w st => by
    simp only [State.hold_sp, State.setSp_hold, andThen_next]

theorem pullWord_ignoresTemp (k : Stack) : ReadIgnoresTemp (pullWord k) :=
  (pullByte_ignoresTemp k).andThenRead fun high => (pullByte_ignoresTemp k).andThenRead
    (f := fun low => .next (joinBytes high low.1, low.2)) fun _ _ _ => rfl

theorem pullByteTo_ignoresTemp (k : Stack) {put : State → Byte → State}
    (hput : ∀ v st w, put (st.hold w) v = (put st v).hold w := by exact fun _ _ _ => rfl) :
    IgnoresTemp (pullByteTo k put) :=
  (pullByte_ignoresTemp k).andThen fun v => ignoresTemp_update (hput v)

theorem pullWordTo_ignoresTemp (k : Stack) {put : State → Word → State}
    (hput : ∀ v st w, put (st.hold w) v = (put st v).hold w := by exact fun _ _ _ => rfl) :
    IgnoresTemp (pullWordTo k put) :=
  (pullWord_ignoresTemp k).andThen fun v => ignoresTemp_update (hput v)

/-- The push of a byte of the state other than the holding register. -/
theorem pushByteOf_ignoresTemp (get : State → Byte)
    (hget : ∀ st w, get (st.hold w) = get st := by exact fun _ _ => rfl) :
    IgnoresTemp fun st => pushByte .s (get st) st := .of (pushByte_ignoresTemp .s) hget

/-- The push of a 16-bit register other than the holding register. -/
theorem pushWordOf_ignoresTemp (get : State → Word)
    (hget : ∀ st w, get (st.hold w) = get st := by exact fun _ _ => rfl) :
    IgnoresTemp fun st => pushWord .s (get st) st := .of (pushWord_ignoresTemp .s) hget

theorem pushList_ignoresTemp (list : Byte) : IgnoresTemp (pushList list) :=
  (pushWordOf_ignoresTemp State.pc |>.opIf _).andThen <|
  (pushWordOf_ignoresTemp State.u |>.opIf _).andThen <|
  (pushWordOf_ignoresTemp State.y |>.opIf _).andThen <|
  (pushWordOf_ignoresTemp State.x |>.opIf _).andThen <|
  (pushByteOf_ignoresTemp State.dp |>.opIf _).andThen <|
  (pushByteOf_ignoresTemp State.b |>.opIf _).andThen <|
  (pushByteOf_ignoresTemp State.a |>.opIf _).andThen <|
  (pushByteOf_ignoresTemp State.cc |>.opIf _)

theorem stackAll_ignoresTemp : IgnoresTemp stackAll :=
  (pushWordOf_ignoresTemp State.pc).andThen <| (pushWordOf_ignoresTemp State.u).andThen <|
  (pushWordOf_ignoresTemp State.y).andThen <| (pushWordOf_ignoresTemp State.x).andThen <|
  (pushByteOf_ignoresTemp State.dp).andThen <| (pushByteOf_ignoresTemp State.b).andThen <|
  (pushByteOf_ignoresTemp State.a).andThen <| pushByteOf_ignoresTemp State.cc

theorem stackFast_ignoresTemp : IgnoresTemp stackFast :=
  (pushWordOf_ignoresTemp State.pc).andThen (pushByteOf_ignoresTemp State.cc)

theorem pullList_ignoresTemp (list : Byte) : IgnoresTemp (pullList list) :=
  (pullByteTo_ignoresTemp .u |>.opIf _).andThen <| (pullByteTo_ignoresTemp .u |>.opIf _).andThen <|
  (pullByteTo_ignoresTemp .u |>.opIf _).andThen <| (pullByteTo_ignoresTemp .u |>.opIf _).andThen <|
  (pullWordTo_ignoresTemp .u |>.opIf _).andThen <| (pullWordTo_ignoresTemp .u |>.opIf _).andThen <|
  (pullWordTo_ignoresTemp .u |>.opIf _).andThen <| (pullWordTo_ignoresTemp .u |>.opIf _)

/-! ## Exceptions, RESET and fetch -/

theorem returnFromException_ignoresTemp : IgnoresTemp returnFromException := by
  have ifEntire {op : State → Result} (hop : IgnoresTemp op) :
      IgnoresTemp fun st => opIf (st.flag .e) op st :=
    .of (fun c => hop.opIf c)
  exact (pullByteTo_ignoresTemp .s).andThen <|
    (ifEntire <|
      (pullByteTo_ignoresTemp .s).andThen <| (pullByteTo_ignoresTemp .s).andThen <|
      (pullByteTo_ignoresTemp .s).andThen <| (pullWordTo_ignoresTemp .s).andThen <|
      (pullWordTo_ignoresTemp .s).andThen <| pullWordTo_ignoresTemp .s).andThen <|
    pullWordTo_ignoresTemp .s

theorem jumpToVector_ignoresTemp (v : Word) : IgnoresTemp (jumpToVector v) :=
  (readWord_ignoresTemp v).andThen fun _ => ignoresTemp_update

theorem State.maskFor_hold (st : State) (w : Word) (ev : Event) :
    (st.hold w).maskFor ev = (st.maskFor ev).hold w := by
  cases ev <;> rfl

theorem takeVector_ignoresTemp (ev : Event) : IgnoresTemp (takeVector ev) :=
  (jumpToVector_ignoresTemp ev.vector).after fun st w => st.maskFor_hold w ev

theorem State.acknowledge_hold (st : State) (w : Word) (ev : Event) :
    (st.hold w).acknowledge ev = (st.acknowledge ev).hold w := by
  cases ev <;> rfl

theorem enterException_ignoresTemp (ev : Event) : IgnoresTemp (enterException ev) := by
  have stack : IgnoresTemp fun st => if ev.entire then stackAll st else stackFast st := by
    cases ev.entire with
    | true => exact stackAll_ignoresTemp
    | false => exact stackFast_ignoresTemp
  refine IgnoresTemp.after (stack.andThen (takeVector_ignoresTemp ev))
    (f := fun st => (st.acknowledge ev).setFlag .e ev.entire) fun st w => ?_
  rw [State.acknowledge_hold]
  rfl

theorem resetMachine_ignoresTemp : IgnoresTemp resetMachine :=
  (jumpToVector_ignoresTemp Config.vectorReset).after

theorem fetchByte_ignoresTemp : ReadIgnoresTemp fetchByte :=
  .andThenRead (.of readByte_ignoresTemp) fun _ _ _ => rfl

theorem fetchFrom_ignoresTemp (n : Nat) (bytes : List Byte) : ReadIgnoresTemp (fetchFrom n bytes) := by
  induction n generalizing bytes with
  | zero => exact fun _ _ => rfl
  | succ n ih =>
    refine fetchByte_ignoresTemp.andThenRead fun v w st => ?_
    dsimp only
    split
    case h_2 => exact ih _ w st
    all_goals rfl

/-! ## Every instruction -/

/-- Two outcomes of an operation that ignores the holding register agree but for it. -/
theorem IgnoresTemp.agree {op : State → Result} (hop : IgnoresTemp op) (w : Word) (st : State) :
    agreeButTempResult (op (st.hold w)) (op st) := by
  rw [hop w st]
  cases op st <;> rfl

theorem agreeButTempResult_of_eq {o o' : Result} (h : o = o') : agreeButTempResult o o' := by
  subst h
  cases o <;> rfl

/-- An indexed address computation writes the holding register before it reads it (R181). -/
theorem eaIndexed_hold (ix : Indexed) (w : Word) (st : State) :
    eaIndexed ix (st.hold w) = eaIndexed ix st := by
  have increment (r : PtrReg) (n : Word) : eaIncrement r n (st.hold w) = eaIncrement r n st := by
    cases r <;> rfl
  have decrement (r : PtrReg) (n : Word) : eaDecrement r n (st.hold w) = eaDecrement r n st := by
    cases r <;> rfl
  have offset (r : PtrReg) (off : Word) : eaOffset r off (st.hold w) = eaOffset r off st := by
    cases r <;> rfl
  have relative (off : Word) : eaPcRelative off (st.hold w) = eaPcRelative off st := rfl
  have extended (addr : Word) : eaExtended addr (st.hold w) = eaExtended addr st := rfl
  cases ix <;> simp only [eaIndexed, increment, decrement, offset, relative, extended, State.hold_a,
    State.hold_b, State.hold_d]

theorem andThen_eaIndexed_hold (ix : Indexed) (f : State → Result) (w : Word) (st : State) :
    andThen (eaIndexed ix (st.hold w)) f = andThen (eaIndexed ix st) f := by
  rw [eaIndexed_hold]

theorem State.readReg_hold (st : State) (w : Word) (r : Reg) : (st.hold w).readReg r = st.readReg r := by
  cases r <;> rfl

theorem State.writeReg_hold (st : State) (w v : Word) (r : Reg) :
    (st.hold w).writeReg r v = (st.writeReg r v).hold w := by
  cases r <;> rfl

theorem whenSameWidth_ignoresTemp (r1 r2 : Reg) {op : State → State}
    (hop : ∀ st w, op (st.hold w) = (op st).hold w) : IgnoresTemp (whenSameWidth r1 r2 op) := fun w st => by
  unfold whenSameWidth
  split
  · exact ignoresTemp_update hop w st
  · rfl

theorem branchIf_ignoresTemp (cond : Byte → Bool) (off : Word) : IgnoresTemp (branchIf cond off) :=
  ignoresTemp_update fun st w => by
    rw [State.hold_cc]
    split <;> rfl

theorem execCwai_ignoresTemp (imm : Byte) : IgnoresTemp (execCwai imm) :=
  (stackAll_ignoresTemp.after (f := fun st => State.setFlag { st with cc := st.cc &&& imm } .e true)).andThen
    ignoresTemp_update

/-- No instruction observes what another left in the holding register (R32). -/
theorem exec_agree (i : Instr) (w : Word) (st : State) :
    agreeButTempResult (exec i (st.hold w)) (exec i st) := by
  have hpostbyte := @exec_of_not_opcodeRow i
  cases i with
  | nop | sync | daa | abx | asra | clrb => rfl
  | rti => exact returnFromException_ignoresTemp.agree w st
  | swi => exact (enterException_ignoresTemp .swi).agree w st
  | swi2 => exact (enterException_ignoresTemp .swi2).agree w st
  | swi3 => exact (enterException_ignoresTemp .swi3).agree w st
  | cwai imm => exact (execCwai_ignoresTemp imm).agree w st
  | exg r1 r2 =>
    refine (whenSameWidth_ignoresTemp r1 r2 fun st w => ?_).agree w st
    simp only [exchange, State.readReg_hold, State.writeReg_hold]
  | tfr r1 r2 =>
    refine (whenSameWidth_ignoresTemp r1 r2 fun st w => ?_).agree w st
    simp only [transfer, State.readReg_hold, State.writeReg_hold]
  | pshs list => exact (pushList_ignoresTemp list).agree w st
  | pulu list => exact (pullList_ignoresTemp list).agree w st
  | beq _ | bgt _ | lbeq _ | lbgt _ => exact (branchIf_ignoresTemp _ _).agree w st
  | ldaImm _ | ldbImm _ | lddImm _ | ldxImm _ | ldyImm _ | lduImm _ => rfl
  | aslDir _ | ldaDir _ | ldbDir _ | lddDir _ | ldxDir _ | ldyDir _ | lduDir _ | stdDir _ | stxDir _
  | stuDir _ | aslExt _ | ldaExt _ | ldbExt _ | lddExt _ | ldxExt _ | ldyExt _ | lduExt _ | stdExt _
  | stxExt _ | stuExt _ => exact agreeButTempResult_of_eq rfl
  | aslIdx ix | ldaIdx ix | ldbIdx ix | lddIdx ix | ldxIdx ix | ldyIdx ix | lduIdx ix | stdIdx ix
  | stxIdx ix | stuIdx ix | leax ix =>
    exact agreeButTempResult_of_eq (andThen_eaIndexed_hold ix _ w st)
  | pbOff5 _ _ | pbInc1 _ | pbInc2 _ | pbInc2Ind _ | pbDec1 _ | pbDec2 _ | pbDec2Ind _ | pbZero _
  | pbZeroInd _ | pbAccB _ | pbAccBInd _ | pbAccA _ | pbAccAInd _ | pbOff8 _ _ | pbOff8Ind _ _
  | pbOff16 _ _ | pbOff16Ind _ _ | pbAccD _ | pbAccDInd _ | pbPcr8 _ | pbPcr8Ind _ | pbPcr16 _
  | pbPcr16Ind _ | pbExtInd _ =>
    obtain ⟨ix, hix⟩ := hpostbyte rfl
    rw [hix, hix]
    exact agreeButTempResult_of_eq (eaIndexed_hold ix w st)

/-! ## The step -/

theorem executeOne_agree (w : Word) (st : State) :
    agreeButTempResult (executeOne (st.hold w)) (executeOne st) := by
  have hfetch : fetchInstr (st.hold w) = andThen (fetchInstr st) fun p => .next (p.1, p.2.hold w) :=
    fetchFrom_ignoresTemp maxInstrBytes [] w st
  simp only [executeOne, hfetch, andThen_assoc, andThen_next]
  cases fetchInstr st with
  | next p => exact exec_agree p.1 w p.2
  | fault r | refused r => rfl

theorem syncWaitStep_ignoresTemp (inp : EnvInput) : IgnoresTemp (syncWaitStep inp) := fun w st => by
  have htakes : (st.hold w).takesNmi = st.takesNmi := rfl
  simp only [syncWaitStep, htakes]
  split <;> rfl

theorem cwaiWaitStep_ignoresTemp (inp : EnvInput) : IgnoresTemp (cwaiWaitStep inp) := fun w st => by
  have hrecognised : (st.hold w).recognised inp = st.recognised inp := rfl
  unfold cwaiWaitStep
  rw [hrecognised]
  split
  next ev _ =>
    have hvector : IgnoresTemp fun st => takeVector ev (st.acknowledge ev) :=
      (takeVector_ignoresTemp ev).after fun st w => st.acknowledge_hold w ev
    exact hvector.andThen (ignoresTemp_update (f := fun st => { st with runState := .running })) w st
  next => rfl

theorem boundary_agree (inp : EnvInput) (w : Word) (st : State) :
    agreeButTempResult (boundary executeOne inp (st.hold w)) (boundary executeOne inp st) := by
  have hrecognised : (st.hold w).recognised inp = st.recognised inp := rfl
  unfold boundary
  rw [State.hold_runState, hrecognised]
  split
  next =>
    split
    next ev _ => exact (enterException_ignoresTemp ev).agree w st
    next => exact executeOne_agree w st
  next => exact (syncWaitStep_ignoresTemp inp).agree w st
  next => exact (cwaiWaitStep_ignoresTemp inp).agree w st

theorem State.latchNmi_hold (st : State) (w : Word) (inp : EnvInput) :
    (st.hold w).latchNmi inp = (st.latchNmi inp).hold w := by
  unfold State.latchNmi
  rw [State.hold_nmiArmed]
  split <;> rfl

/-- Settles O27: RESET ignores the holding register, and so does all a boundary can do. -/
theorem holdingRegisterIsNeverObserved : Obligations.HoldingRegisterIsNeverObserved := by
  intro st w
  have hhold : { st with temp := w } = st.hold w := rfl
  have hinput : (st.hold w).input = st.input := rfl
  have hdrop : (st.hold w).dropInput = st.dropInput.hold w := rfl
  rw [hhold]
  unfold step stepWith
  rw [hinput, hdrop, State.latchNmi_hold]
  split
  · exact resetMachine_ignoresTemp.agree w st.dropInput
  · exact boundary_agree st.input w _

end Sys2Proof.Machine
end

section
/-! PROOFS. An operand whose pointer can be read without side effect is reached: the addressing mode ends in
`MemOperand.after` (R124, R126, R151, R181). LDD reads its two bytes there. -/

namespace Sys2Proof.Machine

open Sys2Proof.Statements

/-! ## Reaching an operand -/

@[simp] theorem State.setPtr_backed (st : State) (r : PtrReg) (v addr : Word) :
    (st.setPtr r v).backed addr = st.backed addr := by
  cases r <;> rfl

@[simp] theorem State.setPtr_peekWord (st : State) (r : PtrReg) (v addr : Word) :
    (st.setPtr r v).peekWord addr = st.peekWord addr := by
  cases r <;> rfl

theorem stepped_backed (st : State) (ix : Indexed) (addr : Word) :
    (stepped st ix).backed addr = st.backed addr := by
  cases ix <;> simp [stepped]

theorem stepped_peekWord (st : State) (ix : Indexed) (addr : Word) :
    (stepped st ix).peekWord addr = st.peekWord addr := by
  cases ix <;> simp [stepped]

/-- The state of an indexed form with its pointer register stepped and the address before indirection held. -/
def heldPlain (st : State) (ix : Indexed) : State := (stepped st ix).hold (plainAddress st ix)

/-- Every form computes its plain address and steps its pointer register; the indirect ones then read the
pointer there (R151, R176). -/
theorem eaIndexed_eq (ix : Indexed) (st : State) :
    eaIndexed ix st = if isIndirect ix then eaIndirect (heldPlain st ix) else .next (heldPlain st ix) := by
  have increment (r : PtrReg) (n : Word) :
      eaIncrement r n st = (st.setPtr r (st.ptr r + n)).hold (st.ptr r) := by cases r <;> rfl
  have decrement (r : PtrReg) (n : Word) :
      eaDecrement r n st = (st.setPtr r (st.ptr r - n)).hold (st.ptr r - n) := by cases r <;> rfl
  have zero (r : PtrReg) : eaOffset r 0#16 st = st.hold (st.ptr r) := by simp [eaOffset]
  cases ix with
  | inc1 r | inc2 r => exact congrArg Host.Outcome.next (increment r _)
  | dec1 r | dec2 r => exact congrArg Host.Outcome.next (decrement r _)
  | inc2Ind r => exact congrArg eaIndirect (increment r _)
  | dec2Ind r => exact congrArg eaIndirect (decrement r _)
  | zero r => exact congrArg Host.Outcome.next (zero r)
  | zeroInd r => exact congrArg eaIndirect (zero r)
  | _ => rfl

theorem eaIndexed_ready {st : State} {ix : Indexed} (h : PointerBacked st ix) :
    eaIndexed ix st = .next ((MemOperand.indexed ix).after st) := by
  rw [eaIndexed_eq]
  cases hind : isIndirect ix with
  | false => simp [MemOperand.after, indexedAddress, hind, heldPlain, State.hold]
  | true =>
    have h0 : (heldPlain st ix).backed (plainAddress st ix) = true :=
      (stepped_backed st ix _).trans (by simpa using h hind 0 (by decide))
    have h1 : (heldPlain st ix).backed (plainAddress st ix + 1#16) = true :=
      (stepped_backed st ix _).trans (h hind 1 (by decide))
    have hptr : (heldPlain st ix).peekWord (plainAddress st ix) = indexedAddress st ix := by
      rw [indexedAddress, if_pos hind]
      exact stepped_peekWord st ix _
    rw [if_pos rfl, eaIndirect_backed h0 h1]
    exact congrArg (fun ea => Host.Outcome.next ((heldPlain st ix).hold ea)) hptr

@[simp] theorem MemOperand.after_temp (st : State) (o : MemOperand) : (o.after st).temp = o.ea st := by
  cases o <;> rfl

@[simp] theorem MemOperand.after_backed (st : State) (o : MemOperand) (addr : Word) :
    (o.after st).backed addr = st.backed addr := by
  cases o with
  | direct lo | extended addr => rfl
  | indexed ix => exact stepped_backed st ix addr

@[simp] theorem MemOperand.after_peekWord (st : State) (o : MemOperand) (addr : Word) :
    (o.after st).peekWord addr = st.peekWord addr := by
  cases o with
  | direct lo | extended addr => rfl
  | indexed ix => exact stepped_peekWord st ix addr

@[simp] theorem MemOperand.after_cc (st : State) (o : MemOperand) : (o.after st).cc = st.cc := by
  cases o with
  | direct lo | extended addr => rfl
  | indexed ix => cases ix <;> simp [MemOperand.after, stepped]

/-! ## LDD -/

@[simp] theorem highByte_joinBytes (h l : Byte) : highByte (joinBytes h l) = h :=
  BitVec.extractLsb'_append_eq_left

@[simp] theorem lowByte_joinBytes (h l : Byte) : lowByte (joinBytes h l) = l :=
  BitVec.extractLsb'_append_eq_right

/-- The flags of a 16-bit load or store as the statements say them (R211). -/
theorem moveFlags_moveFlags16 (v : Word) (cc : Byte) :
    MoveFlags v.msb (v == 0#16) cc (moveFlags16 v cc) := by
  refine ⟨getFlag_moveFlags16 v cc .n, getFlag_moveFlags16 v cc .z, getFlag_moveFlags16 v cc .v, ?_⟩
  rintro g (rfl | rfl | rfl | rfl | rfl) <;> exact getFlag_moveFlags16 v cc _

/-- LDD with its operand reached loads the word that lies at the effective address (R181, R203). -/
theorem exec_lddOf {st : State} {o : MemOperand} (hready : o.Ready st)
    (hdata : BackedFrom st (o.ea st) 2) :
    exec (lddOf o) st = .next ((o.after st).loadD (st.peekWord (o.ea st))) := by
  have hreach : exec (lddOf o) st = loadWordAt State.loadD (o.after st) := by
    cases o with
    | direct lo | extended addr => rfl
    | indexed ix => exact congrArg (andThen · (loadWordAt State.loadD)) (eaIndexed_ready hready)
  have h0 : (o.after st).backed (o.after st).temp = true := by simpa using hdata 0 (by decide)
  have h1 : (o.after st).backed ((o.after st).temp + 1#16) = true := by simpa using hdata 1 (by decide)
  rw [hreach, loadWordAt_backed h0 h1, MemOperand.after_temp, MemOperand.after_peekWord]

/-- Settles O32: the immediate operand is the word itself, every other mode reads it at its address. -/
theorem lddLoadsThePair : Obligations.LddLoadsThePair := by
  refine fun st => ⟨fun v => ⟨_, rfl, rfl, moveFlags_moveFlags16 v st.cc⟩, fun o hready hdata => ?_⟩
  refine ⟨_, exec_lddOf hready hdata, ?_, ?_⟩
  · simp [State.loadD, State.setD, State.peekWord]
  · rw [State.loadD_cc, MemOperand.after_cc]
    exact moveFlags_moveFlags16 _ _

end Sys2Proof.Machine
end

section
/-! PROOFS. The decoder reads a list of bytes from its front: it asks for more until it has the instruction's
own bytes and never looks past them (R82). So fetching byte by byte ends at the instruction that the bytes
at PC decode to (R26, R57), and a quiet step runs it (R321). -/

namespace Sys2Proof

/-! ## Readers of a list of bytes -/

variable {α β : Type}

/-- What the decoder and its parts do with a list of bytes. -/
abbrev Reader (α : Type) := List Byte → Except DecodeError (α × List Byte)

/-- The reader takes the bytes `used` and no others for `v`: every shorter front of them is too short. -/
structure Reads (p : Reader α) (used : List Byte) (v : α) : Prop where
  complete : ∀ rest, p (used ++ rest) = .ok (v, rest)
  truncated : ∀ n, n < used.length → p (used.take n) = .error .truncated

/-- Whatever the reader answers it has read from the front, leaving the rest as it was. -/
def ReadsFront (p : Reader α) : Prop :=
  ∀ ⦃bytes rest : List Byte⦄ ⦃v : α⦄, p bytes = .ok (v, rest) → ∃ used, bytes = used ++ rest ∧ Reads p used v

/-- A reader that takes no byte. -/
theorem reads_nil {p : Reader α} {v : α} (h : ∀ rest, p rest = .ok (v, rest)) : Reads p [] v :=
  ⟨h, fun _ hn => absurd hn (Nat.not_lt_zero _)⟩

/-- A reader that takes a byte and goes on as another reader. -/
theorem Reads.cons {p q : Reader α} {b : Byte} {used : List Byte} {v : α} (h : Reads q used v)
    (hcons : ∀ rest, p (b :: rest) = q rest) (hnil : p [] = .error .truncated) : Reads p (b :: used) v where
  complete rest := (hcons _).trans (h.complete rest)
  truncated n hn := by
    cases n with
    | zero => exact hnil
    | succ n => exact (hcons _).trans (h.truncated n (Nat.lt_of_succ_lt_succ hn))

/-- A reader that is another one with its answer converted. -/
theorem Reads.map {p : Reader α} {q : Reader β} {f : α → β} {used : List Byte} {v : α} (h : Reads p used v)
    (hok : ∀ bytes rest, p bytes = .ok (v, rest) → q bytes = .ok (f v, rest))
    (herr : ∀ bytes, p bytes = .error .truncated → q bytes = .error .truncated) : Reads q used (f v) where
  complete rest := hok _ _ (h.complete rest)
  truncated n hn := herr _ (h.truncated n hn)

/-- A reader of one byte. -/
theorem readsFront_byte {p : Reader α} {f : Byte → α} (hcons : ∀ b rest, p (b :: rest) = .ok (f b, rest))
    (hnil : p [] = .error .truncated) : ReadsFront p := by
  intro bytes rest v h
  cases bytes with
  | nil => rw [hnil] at h; cases h
  | cons b bytes =>
    rw [hcons] at h
    cases h
    exact ⟨[b], rfl, (reads_nil (p := fun rest => .ok (f b, rest)) fun _ => rfl).cons (hcons b) hnil⟩

/-- A reader of two bytes. -/
theorem readsFront_word {p : Reader α} {f : Word → α}
    (hcons : ∀ h l rest, p (h :: l :: rest) = .ok (f (joinBytes h l), rest))
    (hone : ∀ h, p [h] = .error .truncated) (hnil : p [] = .error .truncated) : ReadsFront p := by
  intro bytes rest v h
  match bytes with
  | [] => rw [hnil] at h; cases h
  | [b] => rw [hone] at h; cases h
  | b0 :: b1 :: bytes =>
    rw [hcons] at h
    cases h
    have hlow : Reads (fun bytes => p (b0 :: bytes)) [b1] (f (joinBytes b0 b1)) :=
      (reads_nil (p := fun rest => .ok (f (joinBytes b0 b1), rest)) fun _ => rfl).cons (hcons b0 b1) (hone b0)
    exact ⟨[b0, b1], rfl, hlow.cons (fun _ => rfl) hnil⟩

/-- A byte, and then as another reader that the byte chooses. -/
theorem readsFront_cons {p : Reader α} {q : Byte → Reader α} (hq : ∀ b, ReadsFront (q b))
    (hcons : ∀ b rest, p (b :: rest) = q b rest) (hnil : p [] = .error .truncated) : ReadsFront p := by
  intro bytes rest v h
  cases bytes with
  | nil => rw [hnil] at h; cases h
  | cons b bytes =>
    rw [hcons] at h
    obtain ⟨used, rfl, hreads⟩ := hq b h
    exact ⟨b :: used, rfl, hreads.cons (hcons b) hnil⟩

/-! ## The decoder -/

/-- What an indexed postbyte's shape calls for after the postbyte (R91). -/
def readShape (pb : Byte) : PostbyteShape → Reader Indexed
  | .bare f, rest => .ok (f, rest)
  | .byte f, b :: rest => .ok (f b, rest)
  | .byte _, [] => .error .truncated
  | .word f, h :: l :: rest => .ok (f (joinBytes h l), rest)
  | .word _, _ => .error .truncated
  | .illegal, _ => .error (.illegalPostbyte pb)

/-- What an indexed postbyte calls for after it (R86, R87). -/
def readAfterPostbyte (pb : Byte) : Reader Indexed :=
  let r := PtrReg.ofCode (pb.extractLsb' 5 2)
  if pb.getLsbD 7 then readShape pb (postbyteShape r (pb.extractLsb' 0 5))
  else fun rest => .ok (.off5 r (pb.extractLsb' 0 5), rest)

theorem decodeIndexed_cons (pb : Byte) (rest : List Byte) :
    decodeIndexed (pb :: rest) = readAfterPostbyte pb rest := by
  simp only [decodeIndexed, readAfterPostbyte]
  split
  · generalize postbyteShape _ _ = shape
    cases shape with
    | bare f | illegal => rfl
    | byte f => cases rest <;> rfl
    | word f => match rest with
      | [] | [_] | _ :: _ :: _ => rfl
  · rfl

theorem readShape_readsFront (pb : Byte) (shape : PostbyteShape) : ReadsFront (readShape pb shape) := by
  cases shape with
  | bare f =>
    intro bytes rest v h
    cases h
    exact ⟨[], rfl, reads_nil fun _ => rfl⟩
  | byte f => exact readsFront_byte (fun _ _ => rfl) rfl
  | word f => exact readsFront_word (fun _ _ _ => rfl) (fun _ => rfl) rfl
  | illegal => exact nofun

theorem decodeIndexed_readsFront : ReadsFront decodeIndexed := by
  refine readsFront_cons (q := readAfterPostbyte) (fun pb => ?_) decodeIndexed_cons rfl
  unfold readAfterPostbyte
  dsimp only
  split
  · exact readShape_readsFront pb _
  · intro bytes rest v h
    cases h
    exact ⟨[], rfl, reads_nil fun _ => rfl⟩

theorem decodeOperand_readsFront (shape : OpcodeShape) : ReadsFront (decodeOperand shape) := by
  cases shape with
  | inh i =>
    intro bytes rest v h
    cases h
    exact ⟨[], rfl, reads_nil fun _ => rfl⟩
  | imm8 f | dir f | list f | rel8 f => exact readsFront_byte (fun _ _ => rfl) rfl
  | imm16 f | ext f | rel16 f => exact readsFront_word (fun _ _ _ => rfl) (fun _ => rfl) rfl
  | idx f =>
    intro bytes rest v h
    have hok (ix : Indexed) (bytes rest : List Byte) (h : decodeIndexed bytes = .ok (ix, rest)) :
        decodeOperand (.idx f) bytes = .ok (f ix, rest) := by
      simp [decodeOperand, h]
    have herr (bytes : List Byte) (h : decodeIndexed bytes = .error .truncated) :
        decodeOperand (.idx f) bytes = .error .truncated := by
      simp [decodeOperand, h]
    cases hix : decodeIndexed bytes with
    | error e => simp [decodeOperand, hix] at h
    | ok p =>
      obtain ⟨ix, rest'⟩ := p
      rw [hok ix bytes rest' hix] at h
      cases h
      obtain ⟨used, hused, hreads⟩ := decodeIndexed_readsFront hix
      exact ⟨used, hused, hreads.map (hok ix) herr⟩
  | pair f =>
    refine readsFront_cons (q := fun pb rest => decodeOperand (.pair f) (pb :: rest)) (fun pb => ?_)
      (fun _ _ => rfl) rfl
    intro bytes rest v h
    cases hpair : decodeRegPair pb with
    | none => simp [decodeOperand, hpair] at h
    | some p =>
      obtain ⟨r1, r2⟩ := p
      simp only [decodeOperand, hpair, Except.ok.injEq, Prod.mk.injEq] at h
      obtain ⟨rfl, rfl⟩ := h
      exact ⟨[], rfl, reads_nil fun _ => by simp [decodeOperand, hpair]⟩

theorem decodeRow_readsFront (opcode : List Byte) (row : Option OpcodeShape) :
    ReadsFront (decodeRow opcode row) := by
  cases row with
  | some shape => exact decodeOperand_readsFront shape
  | none => exact nofun

/-- What follows the first byte of an instruction: the operand of its row, or after $10 and $11 the second
byte of the opcode (R81, R82). -/
def decodeAfter (b0 : Byte) : Reader Instr := fun rest => decode (b0 :: rest)

theorem decodeAfter_readsFront (b0 : Byte) : ReadsFront (decodeAfter b0) := by
  by_cases h10 : b0 = 0x10#8
  · subst h10
    exact readsFront_cons (q := fun b1 => decodeRow [0x10#8, b1] (opcodePage2 b1))
      (fun b1 => decodeRow_readsFront _ _) (fun _ _ => rfl) rfl
  by_cases h11 : b0 = 0x11#8
  · subst h11
    exact readsFront_cons (q := fun b1 => decodeRow [0x11#8, b1] (opcodePage3 b1))
      (fun b1 => decodeRow_readsFront _ _) (fun _ _ => rfl) rfl
  have hrow : decodeAfter b0 = decodeRow [b0] (opcodePage1 b0) := by
    funext rest
    simp [decodeAfter, decode, h10, h11]
  rw [hrow]
  exact decodeRow_readsFront _ _

/-- The decoder reads an instruction's own bytes from the front, and every shorter front of them is too
short (R82). -/
theorem decode_readsFront : ReadsFront decode :=
  readsFront_cons decodeAfter_readsFront (fun _ _ => rfl) rfl

end Sys2Proof

namespace Sys2Proof.Machine

open Sys2Proof.Statements

/-! ## The bytes at PC -/

theorem State.codeBytes_length (st : State) (n : Nat) (addr : Word) : (st.codeBytes n addr).length = n := by
  induction n generalizing addr with
  | zero => rfl
  | succ n ih => simp [State.codeBytes, ih]

/-- The bytes at an address are memory's. -/
theorem State.codeBytes_congr {st t : State} (h : t.mem = st.mem) (n : Nat) (addr : Word) :
    t.codeBytes n addr = st.codeBytes n addr := by
  induction n generalizing addr with
  | zero => rfl
  | succ n ih => simp only [State.codeBytes, State.peek, h, ih]

theorem State.codeBytes_setPc (st : State) (pc : Word) (n : Nat) (addr : Word) :
    State.codeBytes { st with pc := pc } n addr = st.codeBytes n addr :=
  State.codeBytes_congr (by rfl) n addr

/-- A front of the bytes at an address. -/
theorem State.codeBytes_take (st : State) {n m : Nat} (h : m ≤ n) (addr : Word) :
    (st.codeBytes n addr).take m = st.codeBytes m addr := by
  induction m generalizing n addr with
  | zero => rfl
  | succ m ih =>
    obtain ⟨n, rfl⟩ : ∃ k, n = k + 1 := ⟨n - 1, by omega⟩
    simp [State.codeBytes, ih (Nat.le_of_succ_le_succ h)]

theorem add_ofNat_succ (addr : Word) (k : Nat) :
    addr + BitVec.ofNat 16 (k + 1) = addr + 1#16 + BitVec.ofNat 16 k := by
  rw [Nat.add_comm k 1, BitVec.ofNat_add, BitVec.add_assoc]

theorem backedFrom_succ {st : State} {addr : Word} {n : Nat} (h : BackedFrom st addr (n + 1)) :
    st.backed addr = true ∧ BackedFrom st (addr + 1#16) n := by
  refine ⟨by simpa using h 0 (Nat.succ_pos n), fun k hk => ?_⟩
  rw [← add_ofNat_succ]
  exact h (k + 1) (Nat.succ_lt_succ hk)

/-- The fetch with `fetched` read so far and `ahead` lying at PC, when the decoder reads both together as the
instruction `i`: it ends there, with PC after them. -/
theorem fetchFrom_of_reads {fetched ahead : List Byte} {i : Instr} (hreads : Reads decode (fetched ++ ahead) i)
    {st : State} (hahead : st.codeBytes ahead.length st.pc = ahead)
    (hbacked : BackedFrom st st.pc ahead.length) (hne : ahead ≠ []) {n : Nat} (hn : ahead.length ≤ n) :
    fetchFrom n fetched st = .next (i, { st with pc := st.pc + BitVec.ofNat 16 ahead.length }) := by
  induction ahead generalizing fetched st n with
  | nil => exact absurd rfl hne
  | cons b ahead ih =>
    obtain ⟨n, rfl⟩ : ∃ k, n = k + 1 := ⟨n - 1, by simp at hn; omega⟩
    obtain ⟨hpc, hlater⟩ := backedFrom_succ hbacked
    obtain ⟨hb, hrest⟩ := List.cons.inj hahead
    have hsplit : fetched ++ b :: ahead = (fetched ++ [b]) ++ ahead := by simp
    rw [hsplit] at hreads
    simp only [fetchFrom, fetchByte_backed hpc, andThen_next, hb]
    cases ahead with
    | nil =>
      have hdecode := hreads.complete []
      simp only [List.append_nil] at hdecode
      simp [hdecode]
    | cons b' ahead =>
      have hshort : decode (fetched ++ [b]) = .error .truncated := by
        have h := hreads.truncated (fetched ++ [b]).length (by simp)
        rwa [List.take_left] at h
      simp only [hshort]
      rw [ih hreads ((st.codeBytes_setPc _ _ _).trans hrest) hlater (by simp) (by simpa using hn)]
      simp only [List.length_cons]
      rw [add_ofNat_succ st.pc (ahead.length + 1)]

/-- The fetch of the instruction the bytes at PC decode to (R26, R57, R82). -/
theorem fetchInstr_of_decode {st : State} {i : Instr} {rest : List Byte}
    (h : decode (st.codeBytes 5 st.pc) = .ok (i, rest)) (hbacked : BackedFrom st st.pc (5 - rest.length)) :
    fetchInstr st = .next (i, { st with pc := st.pc + BitVec.ofNat 16 (5 - rest.length) }) := by
  obtain ⟨used, hbytes, hreads⟩ := decode_readsFront h
  have hlength : used.length + rest.length = 5 := by
    simpa [State.codeBytes_length] using (congrArg List.length hbytes).symm
  have hused : st.codeBytes used.length st.pc = used := by
    rw [← st.codeBytes_take (show used.length ≤ 5 by omega), hbytes]
    exact List.take_left
  have hne : used ≠ [] := by
    rintro rfl
    cases hreads.complete []
  have hcount : used.length = 5 - rest.length := by omega
  rw [← hcount] at hbacked ⊢
  exact fetchFrom_of_reads (fetched := []) hreads hused hbacked hne (by simp only [maxInstrBytes]; omega)

/-! ## The quiet step -/

@[simp] theorem State.atFetch_pc (st : State) : st.atFetch.pc = st.pc := by
  simp [State.atFetch, State.dropInput]

theorem State.atFetch_backed (st : State) (addr : Word) : st.atFetch.backed addr = st.backed addr := by
  simp [State.atFetch, State.dropInput, State.backed, State.kindAt]

theorem State.atFetch_codeBytes (st : State) (n : Nat) (addr : Word) :
    st.atFetch.codeBytes n addr = st.codeBytes n addr :=
  State.codeBytes_congr (by simp [State.atFetch, State.dropInput]) n addr

/-- A step with no RESET, no wait and nothing recognised executes an instruction (R321). -/
theorem step_of_quiet {st : State} (h : st.quiet = true) : step st = executeOne st.atFetch := by
  simp only [State.quiet, Bool.and_eq_true, beq_iff_eq, Bool.not_eq_true', Option.isNone_iff_eq_none] at h
  obtain ⟨⟨hrunning, hreset⟩, hnothing⟩ := h
  have hstate : (st.dropInput.latchNmi st.input).runState = .running := by
    simpa [State.dropInput] using hrunning
  simp only [step, stepWith, hreset, boundary, hstate, hnothing, State.atFetch, Bool.false_eq_true,
    if_false]

/-- Settles O6: a quiet step fetches at PC, and the fetch ends at the instruction the bytes decode to. -/
theorem stepRunsTheDecodedInstruction : Obligations.StepRunsTheDecodedInstruction := by
  intro st i rest hquiet hdecode hbacked
  have hcode : decode (st.atFetch.codeBytes 5 st.atFetch.pc) = .ok (i, rest) := by
    rwa [State.atFetch_codeBytes, State.atFetch_pc]
  have hready : BackedFrom st.atFetch st.atFetch.pc (5 - rest.length) := fun k hk => by
    rw [State.atFetch_backed, State.atFetch_pc]
    exact hbacked k hk
  rw [step_of_quiet hquiet, executeOne, fetchInstr_of_decode hcode hready, andThen_next, State.atFetch_pc]

end Sys2Proof.Machine
end

section
/-! PROOFS. Accesses that meet whatever `MemMap` places (R61): which bytes a run of reads or writes answers
and where it stops, and that an access pays no attention to the registers of the MPU. -/

namespace Sys2Proof.Machine

open Sys2Proof.Statements

/-! ## What answers depends on MemMap alone -/

theorem SameParams.mapped {st t : State} (h : SameParams st t) (addr : Word) : t.mapped addr = st.mapped addr := by
  rw [State.mapped, State.kindAt, h.map]
  rfl

theorem SameParams.kindAt {st t : State} (h : SameParams st t) (addr : Word) : t.kindAt addr = st.kindAt addr := by
  rw [State.kindAt, h.map]
  rfl

theorem readByte_unmapped {st : State} {addr : Word} (h : st.mapped addr = false) :
    readByte addr st = .fault (.unmapped addr) :=
  readByte_eq_fault.mpr ⟨h, rfl⟩

theorem writeByte_unmapped {st : State} {addr : Word} (v : Byte) (h : st.mapped addr = false) :
    writeByte addr v st = .fault (.unmapped addr) :=
  writeByte_eq_fault.mpr ⟨h, rfl⟩

/-- The first address of a run that does not answer is this one, or lies further up. -/
theorem unmappedGoingUp_succ {st : State} {addr : Word} {n k : Nat} (h : UnmappedGoingUp st addr (n + 1) k) :
    k = 0 ∧ st.mapped addr = false ∨
      ∃ j, k = j + 1 ∧ st.mapped addr = true ∧ UnmappedGoingUp st (addr + 1#16) n j := by
  obtain ⟨hk, hbefore, hat⟩ := h
  cases k with
  | zero => exact .inl ⟨rfl, by simpa using hat⟩
  | succ j =>
    refine .inr ⟨j, rfl, by simpa using hbefore 0 j.succ_pos, Nat.lt_of_succ_lt_succ hk, fun i hi => ?_, ?_⟩
    · rw [← add_ofNat_succ]
      exact hbefore (i + 1) (Nat.succ_lt_succ hi)
    · rwa [← add_ofNat_succ]

theorem sub_ofNat_succ (addr : Word) (k : Nat) :
    addr - BitVec.ofNat 16 (k + 1) = addr - 1#16 - BitVec.ofNat 16 k := by
  rw [Nat.add_comm k 1, BitVec.ofNat_add]
  abel

theorem unmappedGoingDown_succ {st : State} {addr : Word} {n k : Nat}
    (h : UnmappedGoingDown st addr (n + 1) k) :
    k = 0 ∧ st.mapped addr = false ∨
      ∃ j, k = j + 1 ∧ st.mapped addr = true ∧ UnmappedGoingDown st (addr - 1#16) n j := by
  obtain ⟨hk, hbefore, hat⟩ := h
  cases k with
  | zero => exact .inl ⟨rfl, by simpa using hat⟩
  | succ j =>
    refine .inr ⟨j, rfl, by simpa using hbefore 0 j.succ_pos, Nat.lt_of_succ_lt_succ hk, fun i hi => ?_, ?_⟩
    · rw [← sub_ofNat_succ]
      exact hbefore (i + 1) (Nat.succ_lt_succ hi)
    · rwa [← sub_ofNat_succ]

theorem mappedFrom_succ {st : State} {addr : Word} {n : Nat} (h : MappedFrom st addr (n + 1)) :
    st.mapped addr = true ∧ MappedFrom st (addr + 1#16) n := by
  refine ⟨by simpa using h 0 n.succ_pos, fun k hk => ?_⟩
  rw [← add_ofNat_succ]
  exact h (k + 1) (Nat.succ_lt_succ hk)

theorem andThen_pure {α : Type} (o : Outcome α) : (andThen o fun v => .next v) = o := by
  cases o <;> rfl

/-! ## Runs of reads going up -/

/-- `n` byte reads going up from an address, each in the state the one before left. -/
def readUp : Nat → Word → State → Outcome (List Byte × State)
  | 0, _, st => .next ([], st)
  | n + 1, addr, st =>
    andThen (readByte addr st) fun p =>
      andThen (readUp n (addr + 1#16) p.2) fun q => .next (p.1 :: q.1, q.2)

theorem readUp_eq_next {n : Nat} {addr : Word} {st w : State} {bytes : List Byte} :
    readUp n addr st = .next (bytes, w) ↔ bytes.length = n ∧ AnsweredGoingUp st addr bytes w := by
  induction n generalizing addr st bytes with
  | zero => cases bytes <;> simp [readUp, AnsweredGoingUp, eq_comm]
  | succ n ih =>
    cases bytes with
    | nil => simp [readUp, andThen_eq_next]
    | cons v vs =>
      simp only [readUp, andThen_eq_next, Host.Outcome.next.injEq, Prod.mk.injEq, List.cons.injEq,
        List.length_cons, Nat.add_right_cancel_iff, AnsweredGoingUp]
      constructor
      · rintro ⟨⟨v', u⟩, hread, ⟨vs', w'⟩, hrest, ⟨rfl, rfl⟩, rfl⟩
        obtain ⟨hlength, hanswered⟩ := ih.mp hrest
        exact ⟨hlength, u, hread, hanswered⟩
      · rintro ⟨hlength, u, hread, hanswered⟩
        exact ⟨(v, u), hread, (vs, w), ih.mpr ⟨hlength, hanswered⟩, ⟨rfl, rfl⟩, rfl⟩

theorem readUp_length {n : Nat} {addr : Word} {st w : State} {bytes : List Byte}
    (h : readUp n addr st = .next (bytes, w)) : bytes.length = n :=
  (readUp_eq_next.mp h).1

/-- All that a run of reads can change: the registers of devices and the count of draws. -/
theorem readUp_frame {n : Nat} {addr : Word} {st w : State} {bytes : List Byte}
    (h : readUp n addr st = .next (bytes, w)) : w = { st with devices := w.devices, draws := w.draws } := by
  induction n generalizing addr st bytes with
  | zero =>
    cases h
    rfl
  | succ n ih =>
    obtain ⟨⟨v, u⟩, hread, hrest⟩ := andThen_eq_next.mp h
    obtain ⟨⟨vs, w'⟩, hreads, hnext⟩ := andThen_eq_next.mp hrest
    cases hnext
    have hu := readByte_frame hread
    rw [ih hreads, hu]

theorem readUp_mapped {n : Nat} {addr : Word} {st : State} (h : MappedFrom st addr n) :
    ∃ bytes w, readUp n addr st = .next (bytes, w) := by
  induction n generalizing addr st with
  | zero => exact ⟨[], st, rfl⟩
  | succ n ih =>
    obtain ⟨hfirst, hlater⟩ := mappedFrom_succ h
    obtain ⟨v, u, hread⟩ := readByte_mapped hfirst
    have hparams := readByte_sameParams hread
    obtain ⟨vs, w, hreads⟩ := ih (st := u) fun k hk => (hparams.mapped _).trans (hlater k hk)
    exact ⟨v :: vs, w, by simp [readUp, hread, hreads]⟩

/-- A run of reads stops at the first address that does not answer. -/
theorem readUp_unmapped {n k : Nat} {addr : Word} {st : State} (h : UnmappedGoingUp st addr n k) :
    readUp n addr st = .fault (.unmapped (addr + BitVec.ofNat 16 k)) := by
  induction n generalizing addr st k with
  | zero => exact absurd h.1 (Nat.not_lt_zero k)
  | succ n ih =>
    rcases unmappedGoingUp_succ h with ⟨rfl, hfirst⟩ | ⟨j, rfl, hfirst, hj, hbefore, hat⟩
    · simp [readUp, readByte_unmapped hfirst]
    · obtain ⟨v, u, hread⟩ := readByte_mapped hfirst
      have hparams := readByte_sameParams hread
      have hlater : UnmappedGoingUp u (addr + 1#16) n j :=
        ⟨hj, fun i hi => (hparams.mapped _).trans (hbefore i hi), (hparams.mapped _).trans hat⟩
      rw [add_ofNat_succ]
      simp [readUp, hread, ih hlater]

theorem readUp_add (n m : Nat) (addr : Word) (st : State) :
    readUp (n + m) addr st = andThen (readUp n addr st) fun p =>
      andThen (readUp m (addr + BitVec.ofNat 16 n) p.2) fun q => .next (p.1 ++ q.1, q.2) := by
  induction n generalizing addr st with
  | zero => simp [readUp, andThen_pure]
  | succ n ih =>
    rw [Nat.add_right_comm, add_ofNat_succ]
    simp only [readUp, ih, andThen_assoc, andThen_next, List.cons_append]

/-- A 16-bit read is a run of two reads, high byte first (R53). -/
theorem readWord_eq_readUp (addr : Word) (st : State) :
    readWord addr st = andThen (readUp 2 addr st) fun p => .next (wordOf p.1 0, p.2) := by
  simp only [readWord, readUp, andThen_assoc, andThen_next]
  rfl

theorem readWord_mapped {addr : Word} {st : State} (h : MappedFrom st addr 2) :
    ∃ v w, readWord addr st = .next (v, w) := by
  obtain ⟨bytes, w, hreads⟩ := readUp_mapped h
  exact ⟨wordOf bytes 0, w, by rw [readWord_eq_readUp, hreads]; rfl⟩

theorem readWord_unmapped {addr : Word} {st : State} {k : Nat} (h : UnmappedGoingUp st addr 2 k) :
    readWord addr st = .fault (.unmapped (addr + BitVec.ofNat 16 k)) := by
  rw [readWord_eq_readUp, readUp_unmapped h]
  rfl

theorem writeWord_mapped {addr : Word} {st : State} (v : Word) (h : MappedFrom st addr 2) :
    writeWord addr v st =
      .next ((st.store addr (highByte v)).store (addr + 1#16) (lowByte v)) := by
  obtain ⟨hhigh, hlater⟩ := mappedFrom_succ h
  exact writeWord_eq_next.mpr ⟨hhigh, (mappedFrom_succ hlater).1, rfl⟩

theorem writeWord_unmapped {addr : Word} {st : State} {k : Nat} (v : Word) (h : UnmappedGoingUp st addr 2 k) :
    writeWord addr v st = .fault (.unmapped (addr + BitVec.ofNat 16 k)) := by
  unfold writeWord
  rcases unmappedGoingUp_succ h with ⟨rfl, hhigh⟩ | ⟨j, rfl, hhigh, hlow⟩
  · simp [writeByte_unmapped _ hhigh]
  · rcases unmappedGoingUp_succ hlow with ⟨rfl, hat⟩ | ⟨_, -, -, hj, -⟩
    · rw [writeByte_mapped hhigh, andThen_next, writeByte_unmapped _ (by simpa using hat)]
    · exact absurd hj (Nat.not_lt_zero _)

/-! ## Runs of writes going down -/

/-- Bytes written going down from an address, each in the state the one before left. -/
def writeDown : List Byte → Word → State → Result
  | [], _, st => .next st
  | v :: vs, addr, st => andThen (writeByte addr v st) (writeDown vs (addr - 1#16))

theorem writeDown_eq_next {vs : List Byte} {addr : Word} {st t : State} :
    writeDown vs addr st = .next t ↔ WrittenGoingDown st addr vs t := by
  induction vs generalizing addr st with
  | nil => simp [writeDown, WrittenGoingDown, eq_comm]
  | cons v vs ih => simp only [writeDown, WrittenGoingDown, andThen_eq_next, ih]

theorem State.store_sameParams (st : State) (addr : Word) (v : Byte) : SameParams st (st.store addr v) :=
  ⟨State.store_map st addr v, State.store_env st addr v⟩

theorem writeDown_mapped {vs : List Byte} {addr : Word} {st : State}
    (h : ∀ j, j < vs.length → st.mapped (addr - BitVec.ofNat 16 j) = true) :
    ∃ t, writeDown vs addr st = .next t := by
  induction vs generalizing addr st with
  | nil => exact ⟨st, rfl⟩
  | cons v vs ih =>
    have hfirst : st.mapped addr = true := by simpa using h 0 (by simp)
    obtain ⟨t, ht⟩ := ih (addr := addr - 1#16) (st := st.store addr v) fun j hj => by
      rw [State.store_mapped, ← sub_ofNat_succ]
      exact h (j + 1) (by simpa using hj)
    exact ⟨t, by rw [writeDown, writeByte_mapped hfirst, andThen_next, ht]⟩

/-- A run of writes stops at the first address that does not answer. -/
theorem writeDown_unmapped {vs : List Byte} {addr : Word} {st : State} {k : Nat}
    (h : UnmappedGoingDown st addr vs.length k) :
    writeDown vs addr st = .fault (.unmapped (addr - BitVec.ofNat 16 k)) := by
  induction vs generalizing addr st k with
  | nil => exact absurd h.1 (Nat.not_lt_zero k)
  | cons v vs ih =>
    rcases unmappedGoingDown_succ h with ⟨rfl, hfirst⟩ | ⟨j, rfl, hfirst, hlater⟩
    · simp [writeDown, writeByte_unmapped _ hfirst]
    · rw [sub_ofNat_succ, writeDown, writeByte_mapped hfirst, andThen_next]
      have hparams := st.store_sameParams addr v
      obtain ⟨hj, hbefore, hat⟩ := hlater
      exact ih ⟨hj, fun i hi => (hparams.mapped _).trans (hbefore i hi), (hparams.mapped _).trans hat⟩

theorem writeDown_append (vs ws : List Byte) (addr : Word) (st : State) :
    writeDown (vs ++ ws) addr st =
      andThen (writeDown vs addr st) (writeDown ws (addr - BitVec.ofNat 16 vs.length)) := by
  induction vs generalizing addr st with
  | nil => simp [writeDown]
  | cons v vs ih =>
    have hrest : writeDown (vs ++ ws) (addr - 1#16) = fun t => andThen (writeDown vs (addr - 1#16) t)
        (writeDown ws (addr - 1#16 - BitVec.ofNat 16 vs.length)) := funext fun t => ih _ t
    rw [List.length_cons, sub_ofNat_succ, List.cons_append, writeDown, hrest, writeDown, andThen_assoc]

/-- All that a run of writes can change: memory, the registers of devices and the count of draws. -/
theorem writeDown_frame {vs : List Byte} {addr : Word} {st t : State} (h : writeDown vs addr st = .next t) :
    t = { st with mem := t.mem, devices := t.devices, draws := t.draws } := by
  induction vs generalizing addr st with
  | nil =>
    cases h
    rfl
  | cons v vs ih =>
    obtain ⟨u, hwrite, hwrites⟩ := andThen_eq_next.mp h
    obtain ⟨-, hu⟩ := writeByte_eq_next.mp hwrite
    rw [ih hwrites, hu, State.store_eq]

theorem writeDown_sameParams {vs : List Byte} {addr : Word} {st t : State}
    (h : writeDown vs addr st = .next t) : SameParams st t :=
  sameParams_of_eq (writeDown_frame h) ⟨rfl, rfl⟩

theorem writeDown_peek_other {vs : List Byte} {addr b : Word} {st t : State}
    (h : writeDown vs addr st = .next t) (hb : ∀ j, j < vs.length → b ≠ addr - BitVec.ofNat 16 j) :
    t.peek b = st.peek b := by
  induction vs generalizing addr st with
  | nil =>
    cases h
    rfl
  | cons v vs ih =>
    obtain ⟨u, hwrite, hwrites⟩ := andThen_eq_next.mp h
    obtain ⟨-, rfl⟩ := writeByte_eq_next.mp hwrite
    have hfirst : b ≠ addr := by simpa using hb 0 (by simp)
    rw [ih hwrites fun j hj => ?_, State.peek_store_other st addr b v hfirst]
    rw [← sub_ofNat_succ]
    exact hb (j + 1) (by simpa using hj)

theorem State.codeBytes_succ_last (st : State) (n : Nat) (addr : Word) :
    st.codeBytes (n + 1) addr = st.codeBytes n addr ++ [st.peek (addr + BitVec.ofNat 16 n)] := by
  induction n generalizing addr with
  | zero => simp [State.codeBytes]
  | succ n ih =>
    rw [State.codeBytes, ih (addr + 1#16), ← add_ofNat_succ]
    rfl

/-- Written to RAM, the bytes lie there, the last one written lowest. -/
theorem writeDown_codeBytes {vs : List Byte} {addr : Word} {st t : State} (h : writeDown vs addr st = .next t)
    (hwf : st.mem.wf = true) (hlength : vs.length ≤ 65536)
    (hram : ∀ j, j < vs.length → st.kindAt (addr - BitVec.ofNat 16 j) = .ram) :
    t.codeBytes vs.length (addr + 1#16 - BitVec.ofNat 16 vs.length) = vs.reverse := by
  induction vs generalizing addr st with
  | nil => rfl
  | cons v vs ih =>
    obtain ⟨u, hwrite, hwrites⟩ := andThen_eq_next.mp h
    obtain ⟨-, rfl⟩ := writeByte_eq_next.mp hwrite
    rw [List.length_cons] at hlength hram
    have hfirst : st.kindAt addr = .ram := by simpa using hram 0 (by simp)
    have hlater := ih hwrites (State.store_wf st addr v hwf) (by omega) fun j hj => by
      rw [State.store_kindAt, ← sub_ofNat_succ]
      exact hram (j + 1) (Nat.succ_lt_succ hj)
    have hbase : addr + 1#16 - BitVec.ofNat 16 (vs.length + 1) =
        addr - 1#16 + 1#16 - BitVec.ofNat 16 vs.length := by
      rw [sub_ofNat_succ]
      abel
    have htop : addr - 1#16 + 1#16 - BitVec.ofNat 16 vs.length + BitVec.ofNat 16 vs.length = addr := by abel
    have hkept : t.peek addr = (st.store addr v).peek addr := writeDown_peek_other hwrites fun j hj => by
      rw [← sub_ofNat_succ]
      intro he
      have hzero : 0#16 = BitVec.ofNat 16 (j + 1) := by simpa using congrArg (addr - ·) he
      have hzero := congrArg BitVec.toNat hzero
      rw [BitVec.toNat_ofNat, BitVec.toNat_ofNat] at hzero
      omega
    rw [List.length_cons, State.codeBytes_succ_last, hbase, hlater, htop, hkept,
      State.peek_store_ram st addr v hwf hfirst, List.reverse_cons]

/-! ## Accesses and register writes -/

/-- The state with what an access may change replaced: memory, the registers of devices, the count of draws. -/
def State.accessed (st : State) (mem : Memory) (devices : List (List Nat)) (draws : Nat) : State :=
  { st with mem := mem, devices := devices, draws := draws }

/-- The update writes registers of the MPU and takes no notice of what an access may change. -/
structure RegisterUpdate (f : State → State) : Prop where
  map : ∀ st, (f st).map = st.map
  access : ∀ st mem devices draws, f (st.accessed mem devices draws) = (f st).accessed mem devices draws

section
variable {f : State → State}

theorem RegisterUpdate.comp {g : State → State} (hg : RegisterUpdate g) (hf : RegisterUpdate f) :
    RegisterUpdate fun st => g (f st) where
  map st := (hg.map _).trans (hf.map st)
  access st mem devices draws := by rw [hf.access, hg.access]

/-- What an access may change is as it was before the update. -/
theorem RegisterUpdate.eq_accessed (hf : RegisterUpdate f) (st : State) :
    f st = (f st).accessed st.mem st.devices st.draws :=
  hf.access st st.mem st.devices st.draws

theorem RegisterUpdate.mem (hf : RegisterUpdate f) (st : State) : (f st).mem = st.mem := by
  rw [hf.eq_accessed]
  rfl

theorem RegisterUpdate.devices (hf : RegisterUpdate f) (st : State) : (f st).devices = st.devices := by
  rw [hf.eq_accessed]
  rfl

theorem RegisterUpdate.draws (hf : RegisterUpdate f) (st : State) : (f st).draws = st.draws := by
  rw [hf.eq_accessed]
  rfl

theorem RegisterUpdate.kindAt (hf : RegisterUpdate f) (st : State) (addr : Word) :
    (f st).kindAt addr = st.kindAt addr := by
  rw [State.kindAt, hf.map]
  rfl

theorem RegisterUpdate.deviceAccess (hf : RegisterUpdate f) (st : State) (d : Device) (addr : Word) (v : Byte) :
    (f st).deviceAccess d addr v = st.deviceAccess d addr v := by
  simp only [State.deviceAccess, hf.devices, hf.draws]

theorem RegisterUpdate.deviceDone (hf : RegisterUpdate f) (st : State) (d : Device) (regs : List Nat) :
    (f st).deviceDone d regs = f (st.deviceDone d regs) :=
  calc (f st).deviceDone d regs
    _ = (f st).accessed st.mem (st.devices.set d.number regs) (st.draws + 1) := by
      rw [← hf.mem, ← hf.devices, ← hf.draws]
      rfl
    _ = f (st.deviceDone d regs) := (hf.access st _ _ _).symm

/-- A read answers the same before and after registers are written. -/
theorem RegisterUpdate.readByte (hf : RegisterUpdate f) (addr : Word) (st : State) :
    readByte addr (f st) = andThen (readByte addr st) fun p => .next (p.1, f p.2) := by
  unfold Machine.readByte
  rw [hf.kindAt]
  cases st.kindAt addr with
  | ram | rom =>
    simp only [State.peek, hf.mem]
    rfl
  | device d =>
    simp only [State.deviceRead, hf.deviceAccess, hf.deviceDone]
    rfl
  | openBus =>
    have hdraw : f st.drawByte.2 = (f st).drawByte.2 :=
      calc f st.drawByte.2
        _ = (f st).accessed st.mem st.devices (st.draws + 1) := hf.access st _ _ _
        _ = (f st).drawByte.2 := by
          rw [← hf.mem, ← hf.devices, ← hf.draws]
          rfl
    rw [andThen_next, hdraw]
    simp only [State.drawByte, hf.draws]
  | unmapped => rfl

theorem RegisterUpdate.readUp (hf : RegisterUpdate f) (n : Nat) (addr : Word) (st : State) :
    readUp n addr (f st) = andThen (readUp n addr st) fun p => .next (p.1, f p.2) := by
  induction n generalizing addr st with
  | zero => rfl
  | succ n ih => simp only [Machine.readUp, hf.readByte, ih, andThen_assoc, andThen_next]

theorem RegisterUpdate.readWord (hf : RegisterUpdate f) (addr : Word) (st : State) :
    readWord addr (f st) = andThen (readWord addr st) fun p => .next (p.1, f p.2) := by
  simp only [readWord_eq_readUp, hf.readUp, andThen_assoc, andThen_next]

theorem RegisterUpdate.store (hf : RegisterUpdate f) (addr : Word) (v : Byte) (st : State) :
    (f st).store addr v = f (st.store addr v) := by
  unfold State.store
  rw [hf.kindAt]
  cases st.kindAt addr with
  | ram =>
    calc (f st).poke addr v
      _ = (f st).accessed (st.mem.write addr.toNat v) st.devices st.draws := by
        rw [← hf.mem, ← hf.devices, ← hf.draws]
        rfl
      _ = f (st.poke addr v) := (hf.access st _ _ _).symm
  | device d => simp only [State.deviceWrite, hf.deviceAccess, hf.deviceDone]
  | rom | openBus | unmapped => rfl

/-- A write does the same before and after registers are written. -/
theorem RegisterUpdate.writeByte (hf : RegisterUpdate f) (addr : Word) (v : Byte) (st : State) :
    writeByte addr v (f st) = andThen (writeByte addr v st) fun t => .next (f t) := by
  unfold Machine.writeByte
  rw [hf.kindAt, hf.store]
  cases st.kindAt addr <;> rfl

theorem RegisterUpdate.writeDown (hf : RegisterUpdate f) (vs : List Byte) (addr : Word) (st : State) :
    writeDown vs addr (f st) = andThen (writeDown vs addr st) fun t => .next (f t) := by
  induction vs generalizing addr st with
  | nil => rfl
  | cons v vs ih => simp only [Machine.writeDown, hf.writeByte, andThen_assoc, andThen_next, ih]

end

end Sys2Proof.Machine
end

section
/-! PROOFS. 16-bit values in memory (R53), and what an access to a device changes and depends on (R61, log 8). -/

namespace Sys2Proof.Machine

open Sys2Proof.Statements

/-! ## 16-bit values -/

theorem backedFrom_of_ramFrom {st : State} {addr : Word} {n : Nat} (h : RamFrom st addr n) :
    BackedFrom st addr n := fun k hk => by
  simp [State.backed, h k hk]

theorem readWord_of_backedFrom {st : State} {addr : Word} (h : BackedFrom st addr 2) :
    readWord addr st = .next (st.peekWord addr, st) := by
  obtain ⟨hhigh, hlater⟩ := backedFrom_succ h
  exact readWord_backed hhigh (backedFrom_succ hlater).1

theorem mappedFrom_of_backedFrom {st : State} {addr : Word} {n : Nat} (h : BackedFrom st addr n) :
    MappedFrom st addr n := fun k hk => State.mapped_of_backed (h k hk)

theorem State.store_ram {st : State} {addr : Word} (v : Byte) (h : st.kindAt addr = .ram) :
    st.store addr v = st.poke addr v := by
  simp [State.store, h]

theorem add_one_ne (addr : Word) : addr + 1#16 ≠ addr := by
  simp

theorem joinBytes_highByte_lowByte (w : Word) : joinBytes (highByte w) (lowByte w) = w :=
  BitVec.extractLsb'_append_extractLsb'_eq_extractLsb' rfl |>.trans BitVec.extractLsb'_eq_self

/-- Settles O10: the word is read byte by byte, and a write to RAM is two stores at different addresses. -/
theorem wordsLieInMemoryHighByteFirst : Obligations.WordsLieInMemoryHighByteFirst := by
  refine ⟨fun st addr h => readWord_of_backedFrom h, fun st addr v hwf hram => ?_⟩
  have hhigh : st.kindAt addr = .ram := by simpa using hram 0 (by decide)
  have hlow : st.kindAt (addr + 1#16) = .ram := hram 1 (by decide)
  have hwf1 : (st.store addr (highByte v)).mem.wf = true := State.store_wf st addr _ hwf
  have hlow1 : (st.store addr (highByte v)).kindAt (addr + 1#16) = .ram := by rw [State.store_kindAt, hlow]
  obtain ⟨t, ht⟩ : ∃ t, t = (st.store addr (highByte v)).store (addr + 1#16) (lowByte v) := ⟨_, rfl⟩
  have hpeekHigh : t.peek addr = highByte v := by
    rw [ht, State.peek_store_other _ _ _ _ (add_one_ne addr).symm, State.peek_store_ram st addr _ hwf hhigh]
  have hpeekLow : t.peek (addr + 1#16) = lowByte v := by
    rw [ht, State.peek_store_ram _ _ _ hwf1 hlow1]
  have hbacked : BackedFrom t addr 2 := fun k hk => by
    rw [ht, State.store_backed, State.store_backed]
    exact backedFrom_of_ramFrom hram k hk
  refine ⟨t, ?_, hpeekHigh, hpeekLow, fun a hne0 hne1 => ?_, ?_, ?_, ?_⟩
  · rw [ht]
    exact writeWord_mapped v (mappedFrom_of_backedFrom (backedFrom_of_ramFrom hram))
  · rw [ht, State.peek_store_other _ _ _ _ hne1, State.peek_store_other _ _ _ _ hne0]
  · rw [ht, State.store_ram _ hlow1, State.store_ram _ hhigh]
    rfl
  · rw [ht]
    exact State.store_wf _ _ _ hwf1
  · rw [readWord_of_backedFrom hbacked, State.peekWord, hpeekHigh, hpeekLow, joinBytes_highByte_lowByte]

/-! ## Devices -/

theorem writeByte_device {st : State} {addr : Word} {d : Device} (v : Byte) (h : st.kindAt addr = .device d) :
    writeByte addr v st = .next (st.deviceWrite d addr v) := by
  rw [writeByte_mapped (by simp [State.mapped, h]), State.store_device v h]

/-- An access depends on the device's own registers and the draw (R61, log 8). -/
theorem State.deviceAccess_congr {st st' : State} {d : Device} (hdraws : st'.draws = st.draws)
    (hregs : st'.devices[d.number]? = st.devices[d.number]?) (addr : Word) (v : Byte) :
    st'.deviceAccess d addr v = st.deviceAccess d addr v := by
  simp only [State.deviceAccess, hdraws, List.getD_eq_getElem?_getD, hregs]

theorem State.deviceDone_other (st : State) (d : Device) (regs : List Nat) {m : Nat} (h : m ≠ d.number) :
    (st.deviceDone d regs).devices[m]? = st.devices[m]? :=
  List.getElem?_set_ne h.symm

/-- What an access leaves in its device depends on nothing else of the devices. -/
theorem State.deviceDone_congr {st st' : State} {d : Device} (regs : List Nat)
    (hregs : st'.devices[d.number]? = st.devices[d.number]?) :
    (st'.deviceDone d regs).devices[d.number]? = (st.deviceDone d regs).devices[d.number]? := by
  simp only [State.deviceDone, List.getElem?_set_self', hregs]

/-- A write that keeps the byte in register `k`, read back by the register's value (R61). -/
theorem readByte_deviceWrite_latch {st : State} {addr : Word} {d : Device} {v : Byte} {k : Nat}
    {regs : List Nat} (hd : st.kindAt addr = .device d) (hregs : st.devices[d.number]? = some regs)
    (hk : k < regs.length) (hwrite : d.onWrite = [(k, .data)]) (hread : d.readValue = .reg k) :
    ∃ w, readByte addr (st.deviceWrite d addr v) = .next (v, w) := by
  have hheld : (st.deviceWrite d addr v).devices[d.number]? = some (regs.set k v.toNat) := by
    obtain ⟨hin, hbefore⟩ := List.getElem?_eq_some_iff.mp hregs
    simp [State.deviceWrite, State.deviceAccess, DeviceAccess.after, DeviceExpr.eval, hwrite, hin, hbefore]
  have hkind : (st.deviceWrite d addr v).kindAt addr = .device d := hd
  refine ⟨_, (readByte_device hkind).trans (congrArg Host.Outcome.next (Prod.ext ?_ rfl))⟩
  simp [State.deviceRead, hread, DeviceExpr.eval, State.deviceAccess, hheld, hk]

/-- Settles O15: an access is the device's function of what `DeviceAccess` holds, and replaces the registers
of that device. -/
theorem deviceAccessesStayInTheDevice : Obligations.DeviceAccessesStayInTheDevice := by
  intro st addr d hd
  refine ⟨⟨_, _, readByte_device hd, rfl, fun m => st.deviceDone_other d _, ?_⟩, fun v =>
    ⟨_, writeByte_device v hd, rfl, fun m => st.deviceDone_other d _, ?_, ?_⟩⟩
  · intro st' hd' hdraws hregs
    refine ⟨(st'.deviceRead d addr).2, ?_, ?_⟩
    · rw [readByte_device hd', State.deviceRead, State.deviceAccess_congr hdraws hregs]
    · simp only [State.deviceRead, State.deviceAccess_congr hdraws hregs]
      exact State.deviceDone_congr _ hregs
  · intro st' hd' hdraws hregs
    refine ⟨_, writeByte_device v hd', ?_⟩
    simp only [State.deviceWrite, State.deviceAccess_congr hdraws hregs]
    exact State.deviceDone_congr _ hregs
  · intro k regs hregs hk hwrite hread
    exact readByte_deviceWrite_latch hd hregs hk hwrite hread

end Sys2Proof.Machine
end

section
/-! PROOFS. The stacks (R254): a sequence of pushes is one run of writes going down from S, a sequence of pulls
one run of reads going up, whatever answers. PSHS, CWAI and the entries are pushes, PULU and RTI pulls. -/

namespace Sys2Proof.Machine

open Sys2Proof.Statements

/-! ## Pushes on S -/

/-- Bytes pushed on the S stack: written going down from S, which ends at the last of them. -/
def pushDown (vs : List Byte) (st : State) : Result :=
  andThen (writeDown vs (st.s - 1#16) st) fun t => .next { t with s := st.s - BitVec.ofNat 16 vs.length }

/-- The update of S as a push makes it. -/
theorem setS_registerUpdate (w : Word) : RegisterUpdate fun st => { st with s := w } :=
  ⟨fun _ => rfl, fun _ _ _ _ => rfl⟩

/-- The operation pushes the bytes `get` takes from the registers, which no push changes. -/
structure Pushes (op : State → Result) (get : State → List Byte) : Prop where
  eq : ∀ st, op st = pushDown (get st) st
  kept : ∀ (st : State) s mem devices draws, get ({ st with s := s }.accessed mem devices draws) = get st

theorem pushDown_append (vs ws : List Byte) (st : State) :
    pushDown (vs ++ ws) st = andThen (pushDown vs st) (pushDown ws) := by
  have hbase : st.s - 1#16 - BitVec.ofNat 16 vs.length = st.s - BitVec.ofNat 16 vs.length - 1#16 := by abel
  have hend : st.s - BitVec.ofNat 16 (vs ++ ws).length =
      st.s - BitVec.ofNat 16 vs.length - BitVec.ofNat 16 ws.length := by
    rw [List.length_append, BitVec.ofNat_add]
    abel
  simp only [pushDown, writeDown_append, andThen_assoc, andThen_next, hbase, hend,
    (setS_registerUpdate (st.s - BitVec.ofNat 16 vs.length)).writeDown]

theorem Pushes.andThen {op op' : State → Result} {get get' : State → List Byte} (h : Pushes op get)
    (h' : Pushes op' get') : Pushes (fun st => andThen (op st) op') fun st => get st ++ get' st where
  eq st := by
    rw [h.eq, pushDown_append]
    have hbytes : ∀ t, pushDown (get st) st = .next t → get' t = get' st := fun t ht => by
      obtain ⟨u, hwrite, hnext⟩ := andThen_eq_next.mp ht
      cases hnext
      rw [writeDown_frame hwrite]
      exact h'.kept st _ _ _ _
    cases hpush : pushDown (get st) st with
    | next t => exact (h'.eq t).trans (by rw [hbytes t hpush]; rfl)
    | fault r | refused r => rfl
  kept st s mem devices draws := by rw [h.kept, h'.kept]

theorem Pushes.opIf (c : Bool) {op : State → Result} {get : State → List Byte} (h : Pushes op get) :
    Pushes (opIf c op) fun st => if c then get st else [] := by
  cases c with
  | true => exact h
  | false => exact ⟨fun st => by simp [pushDown, writeDown], fun _ _ _ _ _ => rfl⟩

theorem pushByte_eq_pushDown (v : Byte) (st : State) : pushByte .s v st = pushDown [v] st := by
  have hwrite := (setS_registerUpdate (st.s - 1#16)).writeByte (st.s - 1#16) v st
  simp only [pushDown, writeDown, andThen_assoc, andThen_next]
  exact hwrite

theorem pushWord_eq_pushDown (v : Word) (st : State) :
    pushWord .s v st = pushDown [lowByte v, highByte v] st := by
  rw [show [lowByte v, highByte v] = [lowByte v] ++ [highByte v] from rfl, pushDown_append]
  simp only [pushWord, pushByte_eq_pushDown, funext (pushByte_eq_pushDown (highByte v))]

/-- The push of a byte register. -/
theorem pushByte_pushes (get : State → Byte)
    (hkept : ∀ (st : State) s mem devices draws, get ({ st with s := s }.accessed mem devices draws) = get st := by
      exact fun _ _ _ _ _ => rfl) : Pushes (fun st => pushByte .s (get st) st) fun st => [get st] where
  eq st := pushByte_eq_pushDown (get st) st
  kept st s mem devices draws := by rw [hkept]

/-- The push of a 16-bit register, its low byte first. -/
theorem pushWord_pushes (get : State → Word)
    (hkept : ∀ (st : State) s mem devices draws, get ({ st with s := s }.accessed mem devices draws) = get st := by
      exact fun _ _ _ _ _ => rfl) :
    Pushes (fun st => pushWord .s (get st) st) fun st => [lowByte (get st), highByte (get st)] where
  eq st := pushWord_eq_pushDown (get st) st
  kept st s mem devices draws := by rw [hkept]

/-- The entire state goes down from PC to CC (R322). -/
theorem stackAll_eq (st : State) : stackAll st = pushDown (entireFrame st st.cc).reverse st :=
  ((pushWord_pushes State.pc).andThen <| (pushWord_pushes State.u).andThen <|
    (pushWord_pushes State.y).andThen <| (pushWord_pushes State.x).andThen <|
    (pushByte_pushes State.dp).andThen <| (pushByte_pushes State.b).andThen <|
    (pushByte_pushes State.a).andThen <| pushByte_pushes State.cc).eq st

/-- PC and CC alone (R323). -/
theorem stackFast_eq (st : State) : stackFast st = pushDown (fastFrame st st.cc).reverse st :=
  ((pushWord_pushes State.pc).andThen (pushByte_pushes State.cc)).eq st

/-- The bytes of the registers a list names, PC's low byte first, CC last (R253, R258). -/
def listDown (list : Byte) (st : State) : List Byte :=
  (if list.getLsbD 7 then [lowByte st.pc, highByte st.pc] else []) ++
  ((if list.getLsbD 6 then [lowByte st.u, highByte st.u] else []) ++
  ((if list.getLsbD 5 then [lowByte st.y, highByte st.y] else []) ++
  ((if list.getLsbD 4 then [lowByte st.x, highByte st.x] else []) ++
  ((if list.getLsbD 3 then [st.dp] else []) ++
  ((if list.getLsbD 2 then [st.b] else []) ++
  ((if list.getLsbD 1 then [st.a] else []) ++
  (if list.getLsbD 0 then [st.cc] else [])))))))

theorem pushList_eq (list : Byte) (st : State) : pushList list st = pushDown (listDown list st) st :=
  ((pushWord_pushes State.pc |>.opIf _).andThen <| (pushWord_pushes State.u |>.opIf _).andThen <|
    (pushWord_pushes State.y |>.opIf _).andThen <| (pushWord_pushes State.x |>.opIf _).andThen <|
    (pushByte_pushes State.dp |>.opIf _).andThen <| (pushByte_pushes State.b |>.opIf _).andThen <|
    (pushByte_pushes State.a |>.opIf _).andThen <| (pushByte_pushes State.cc |>.opIf _)).eq st

theorem memberOffset_zero (list : Byte) : memberOffset list 0 = 0 := rfl

/-- A byte register's member is one byte further up the list's bytes, where it is listed (R96). -/
theorem memberOffset_succ_byte (list : Byte) {k : Nat} (h : k < 4) :
    memberOffset list (k + 1) = memberOffset list k + if list.getLsbD k then 1 else 0 := by
  simp [memberOffset, memberBytes, List.range_succ, Nat.not_le_of_lt h]

/-- A 16-bit register's member takes two bytes, where it is listed (R96). -/
theorem memberOffset_succ_word (list : Byte) {k : Nat} (h : 4 ≤ k) :
    memberOffset list (k + 1) = memberOffset list k + if list.getLsbD k then 2 else 0 := by
  simp [memberOffset, memberBytes, List.range_succ, h]

/-- Where each member of a list lies, from the lowest: CC, A, B, DP of one byte, X, Y, U or S, PC of two
(R96, R253). -/
theorem memberOffsets (list : Byte) :
    memberOffset list 1 = (if list.getLsbD 0 then 1 else 0) ∧
    memberOffset list 2 = memberOffset list 1 + (if list.getLsbD 1 then 1 else 0) ∧
    memberOffset list 3 = memberOffset list 2 + (if list.getLsbD 2 then 1 else 0) ∧
    memberOffset list 4 = memberOffset list 3 + (if list.getLsbD 3 then 1 else 0) ∧
    memberOffset list 5 = memberOffset list 4 + (if list.getLsbD 4 then 2 else 0) ∧
    memberOffset list 6 = memberOffset list 5 + (if list.getLsbD 5 then 2 else 0) ∧
    memberOffset list 7 = memberOffset list 6 + (if list.getLsbD 6 then 2 else 0) ∧
    listBytes list = memberOffset list 7 + (if list.getLsbD 7 then 2 else 0) :=
  ⟨by rw [memberOffset_succ_byte list (by decide), memberOffset_zero, Nat.zero_add],
    memberOffset_succ_byte list (by decide), memberOffset_succ_byte list (by decide),
    memberOffset_succ_byte list (by decide), memberOffset_succ_word list (by decide),
    memberOffset_succ_word list (by decide), memberOffset_succ_word list (by decide),
    memberOffset_succ_word list (by decide)⟩

theorem length_listDown (list : Byte) (st : State) : (listDown list st).length = listBytes list := by
  have hsize (c : Bool) (vs : List Byte) : (if c then vs else []).length = if c then vs.length else 0 := by
    cases c <;> rfl
  obtain ⟨h1, h2, h3, h4, h5, h6, h7, hall⟩ := memberOffsets list
  simp only [listDown, List.length_append, hsize, List.length_cons, List.length_nil, Nat.reduceAdd]
  omega

/-! ## Pulls -/

/-- `n` bytes pulled: read going up from the stack pointer, given to `put`, the pointer past them. -/
def pullUp (k : Stack) (n : Nat) (put : List Byte → State → State) (st : State) : Result :=
  andThen (readUp n (st.sp k) st) fun p => .next ((put p.1 p.2).setSp k (st.sp k + BitVec.ofNat 16 n))

/-- The operation pulls `n` bytes and gives them to `put`, which writes registers with them other than the
stack pointer and looks at no byte after them. -/
structure Pulls (k : Stack) (op : State → Result) (n : Nat) (put : List Byte → State → State) : Prop where
  eq : ∀ st, op st = pullUp k n put st
  update : ∀ bytes, RegisterUpdate (put bytes)
  setSp : ∀ bytes (st : State) v, put bytes (st.setSp k v) = (put bytes st).setSp k v
  front : ∀ bytes later, bytes.length = n → put (bytes ++ later) = put bytes

theorem setSp_registerUpdate (k : Stack) (w : Word) : RegisterUpdate fun st => st.setSp k w := by
  cases k <;> exact ⟨fun _ => rfl, fun _ _ _ _ => rfl⟩

theorem Pulls.andThen {k : Stack} {op op' : State → Result} {n m : Nat} {put put' : List Byte → State → State}
    (h : Pulls k op n put) (h' : Pulls k op' m put') :
    Pulls k (fun st => andThen (op st) op') (n + m) fun bytes st => put' (bytes.drop n) (put bytes st) where
  eq st := by
    simp only [h.eq, pullUp, readUp_add, andThen_assoc, andThen_next]
    cases hreads : readUp n (st.sp k) st with
    | fault r | refused r => rfl
    | next p =>
      obtain ⟨bytes, w⟩ := p
      have hlength := readUp_length hreads
      have hreads' := ((setSp_registerUpdate k (st.sp k + BitVec.ofNat 16 n)).comp (h.update bytes)).readUp m
        (st.sp k + BitVec.ofNat 16 n) w
      simp only [andThen_next, h'.eq, pullUp, State.setSp_sp, hreads', andThen_assoc, h'.setSp,
        State.setSp_setSp, BitVec.ofNat_add, BitVec.add_assoc]
      congr 1
      funext q
      rw [h.front bytes q.1 hlength, List.drop_left' hlength]
  update bytes := (h'.update _).comp (h.update _)
  setSp bytes st v := by rw [h.setSp, h'.setSp]
  front bytes later hlength := by
    have hfirst : put (bytes ++ later) = put bytes := by
      conv_lhs => rw [← List.take_append_drop n bytes, List.append_assoc]
      conv_rhs => rw [← List.take_append_drop n bytes]
      rw [h.front _ _ (by simp; omega), h.front _ _ (by simp; omega)]
    rw [hfirst, List.drop_append_of_le_length (by omega), h'.front _ _ (by simp; omega)]

theorem Pulls.congr {k : Stack} {op : State → Result} {n n' : Nat} {put put' : List Byte → State → State}
    (h : Pulls k op n put) (hn : n = n') (hput : ∀ bytes st, put bytes st = put' bytes st) :
    Pulls k op n' put' := by
  rwa [← hn, ← funext fun bytes => funext (hput bytes)]

theorem Pulls.opIf (c : Bool) {k : Stack} {op : State → Result} {n : Nat} {put : List Byte → State → State}
    (h : Pulls k op n put) :
    Pulls k (opIf c op) (if c then n else 0) fun bytes st => if c then put bytes st else st := by
  cases c with
  | true => exact h
  | false =>
    refine ⟨fun st => ?_, fun _ => ⟨fun _ => rfl, fun _ _ _ _ => rfl⟩, fun _ _ _ => rfl, fun _ _ _ => rfl⟩
    simp [pullUp, readUp]

theorem readByte_sp {addr : Word} {st t : State} {v : Byte} (k : Stack) (h : readByte addr st = .next (v, t)) :
    t.sp k = st.sp k := by
  rw [readByte_frame h]
  cases k <;> rfl

theorem pullByte_eq (k : Stack) (st : State) :
    pullByte k st = andThen (readUp 1 (st.sp k) st) fun p =>
      .next (byteOf p.1 0, p.2.setSp k (st.sp k + 1#16)) := by
  simp only [pullByte, readUp, andThen_assoc, andThen_next]
  cases hread : readByte (st.sp k) st with
  | next p => simp [readByte_sp k hread]
  | fault r | refused r => rfl

theorem pullWord_eq (k : Stack) (st : State) :
    pullWord k st = andThen (readUp 2 (st.sp k) st) fun p =>
      .next (wordOf p.1 0, p.2.setSp k (st.sp k + 2#16)) := by
  simp only [pullWord, pullByte_eq, readUp, andThen_assoc, andThen_next, State.setSp_sp,
    (setSp_registerUpdate k (st.sp k + 1#16)).readByte, State.setSp_setSp, BitVec.add_assoc]
  rfl

/-- A pull into a byte register other than the stack pointer. -/
theorem pullByteTo_pulls (k : Stack) (put : State → Byte → State)
    (hupdate : ∀ v, RegisterUpdate fun st => put st v := by exact fun _ => ⟨fun _ => rfl, fun _ _ _ _ => rfl⟩)
    (hsetSp : ∀ v (st : State) w, put (st.setSp k w) v = (put st v).setSp k w := by exact fun _ _ _ => rfl) :
    Pulls k (pullByteTo k put) 1 fun bytes st => put st (byteOf bytes 0) where
  eq st := by simp only [pullByteTo, pullByte_eq, pullUp, andThen_assoc, andThen_next, hsetSp]
  update bytes := hupdate _
  setSp bytes st v := hsetSp _ st v
  front bytes later hlength := by
    obtain ⟨v, rfl⟩ := List.length_eq_one_iff.mp hlength
    rfl

/-- A pull into a 16-bit register other than the stack pointer. -/
theorem pullWordTo_pulls (k : Stack) (put : State → Word → State)
    (hupdate : ∀ v, RegisterUpdate fun st => put st v := by exact fun _ => ⟨fun _ => rfl, fun _ _ _ _ => rfl⟩)
    (hsetSp : ∀ v (st : State) w, put (st.setSp k w) v = (put st v).setSp k w := by exact fun _ _ _ => rfl) :
    Pulls k (pullWordTo k put) 2 fun bytes st => put st (wordOf bytes 0) where
  eq st := by simp only [pullWordTo, pullWord_eq, pullUp, andThen_assoc, andThen_next, hsetSp]
  update bytes := hupdate _
  setSp bytes st v := hsetSp _ st v
  front bytes later hlength := by
    obtain ⟨v0, v1, rfl⟩ := List.length_eq_two.mp hlength
    rfl

theorem byteOf_drop (bytes : List Byte) (n k : Nat) : byteOf (bytes.drop n) k = byteOf bytes (n + k) := by
  simp [byteOf, List.getD_eq_getElem?_getD]

/-- What PULU does with the bytes it pulled: each listed register takes its own (R253, R259). -/
def putList (list : Byte) (bytes : List Byte) (st : State) : State :=
  { st with
    cc := if list.getLsbD 0 then byteOf bytes (memberOffset list 0) else st.cc
    a := if list.getLsbD 1 then byteOf bytes (memberOffset list 1) else st.a
    b := if list.getLsbD 2 then byteOf bytes (memberOffset list 2) else st.b
    dp := if list.getLsbD 3 then byteOf bytes (memberOffset list 3) else st.dp
    x := if list.getLsbD 4 then wordOf bytes (memberOffset list 4) else st.x
    y := if list.getLsbD 5 then wordOf bytes (memberOffset list 5) else st.y
    s := if list.getLsbD 6 then wordOf bytes (memberOffset list 6) else st.s
    nmiArmed := st.nmiArmed || list.getLsbD 6
    pc := if list.getLsbD 7 then wordOf bytes (memberOffset list 7) else st.pc }

theorem pullList_pulls (list : Byte) : Pulls .u (pullList list) (listBytes list) (putList list) := by
  have member {c : Bool} {op : State → Result} {n : Nat} {put put' : List Byte → State → State}
      (h : Pulls .u op n put) (hput : ∀ bytes st, (if c then put bytes st else st) = put' bytes st) :
      Pulls .u (opIf c op) (if c then n else 0) put' := (h.opIf c).congr rfl hput
  obtain ⟨h1, h2, h3, h4, h5, h6, h7, hall⟩ := memberOffsets list
  refine ((member (pullByteTo_pulls .u _)
      (put' := fun bytes st => { st with cc := if list.getLsbD 0 then byteOf bytes 0 else st.cc }) ?_).andThen <|
    (member (pullByteTo_pulls .u _)
      (put' := fun bytes st => { st with a := if list.getLsbD 1 then byteOf bytes 0 else st.a }) ?_).andThen <|
    (member (pullByteTo_pulls .u _)
      (put' := fun bytes st => { st with b := if list.getLsbD 2 then byteOf bytes 0 else st.b }) ?_).andThen <|
    (member (pullByteTo_pulls .u _)
      (put' := fun bytes st => { st with dp := if list.getLsbD 3 then byteOf bytes 0 else st.dp }) ?_).andThen <|
    (member (pullWordTo_pulls .u _)
      (put' := fun bytes st => { st with x := if list.getLsbD 4 then wordOf bytes 0 else st.x }) ?_).andThen <|
    (member (pullWordTo_pulls .u _)
      (put' := fun bytes st => { st with y := if list.getLsbD 5 then wordOf bytes 0 else st.y }) ?_).andThen <|
    (member (pullWordTo_pulls .u _)
      (put' := fun bytes st => { st with s := if list.getLsbD 6 then wordOf bytes 0 else st.s,
                                         nmiArmed := st.nmiArmed || list.getLsbD 6 }) ?_).andThen <|
    member (pullWordTo_pulls .u _)
      (put' := fun bytes st => { st with pc := if list.getLsbD 7 then wordOf bytes 0 else st.pc }) ?_).congr ?_ ?_
  case refine_9 => simp only [hall, h7, h6, h5, h4, h3, h2, h1, Nat.add_assoc]
  case refine_10 =>
    intro bytes st
    simp only [putList, byteOf_drop, wordOf, memberOffset_zero, h7, h6, h5, h4, h3, h2, h1, Nat.add_assoc,
      Nat.add_zero]
  case refine_7 =>
    intro bytes st
    cases list.getLsbD 6 <;> simp [State.loadS]
  all_goals
    intro bytes st
    split <;> rfl

/-- What RTI does with an entire frame (R294, R322). -/
def putEntire (bytes : List Byte) (st : State) : State :=
  { st with
    cc := byteOf bytes 0, a := byteOf bytes 1, b := byteOf bytes 2, dp := byteOf bytes 3
    x := wordOf bytes 4, y := wordOf bytes 6, u := wordOf bytes 8, pc := wordOf bytes 10 }

/-- What RTI does with a frame of PC and CC (R294, R323). -/
def putFast (bytes : List Byte) (st : State) : State :=
  { st with cc := byteOf bytes 0, pc := wordOf bytes 1 }

/-- RTI pulls the frame that the E of its first byte tells of (R294). -/
theorem returnFromException_eq {st u : State} {v : Byte} (h : readByte st.s st = .next (v, u)) :
    returnFromException st =
      if v.getLsbD 7 then pullUp .s 12 putEntire st else pullUp .s 3 putFast st := by
  have hcc : pullByteTo .s (fun st v => { st with cc := v }) st = .next { u with s := u.s + 1#16, cc := v } := by
    simp only [pullByteTo, pullByte, State.sp, h, andThen_next]
    rfl
  have hflag : State.flag { u with s := u.s + 1#16, cc := v } .e = v.getLsbD 7 := rfl
  rw [returnFromException, hcc, andThen_next, hflag]
  cases v.getLsbD 7 with
  | true =>
    have hpulls := (((pullByteTo_pulls .s fun st v => { st with cc := v }).andThen <|
      ((pullByteTo_pulls .s fun st v => { st with a := v }).andThen <|
        (pullByteTo_pulls .s fun st v => { st with b := v }).andThen <|
        (pullByteTo_pulls .s fun st v => { st with dp := v }).andThen <|
        (pullWordTo_pulls .s fun st v => { st with x := v }).andThen <|
        (pullWordTo_pulls .s fun st v => { st with y := v }).andThen <|
        pullWordTo_pulls .s fun st v => { st with u := v }).andThen <|
      pullWordTo_pulls .s fun st v => { st with pc := v }).congr (n' := 12) (put' := putEntire) rfl
        fun bytes st => by simp only [putEntire, byteOf_drop, wordOf]).eq st
    rwa [hcc, andThen_next] at hpulls
  | false =>
    have hpulls := (((pullByteTo_pulls .s fun st v => { st with cc := v }).andThen <|
      pullWordTo_pulls .s fun st v => { st with pc := v }).congr (n' := 3) (put' := putFast) rfl
        fun bytes st => by simp only [putFast, byteOf_drop, wordOf]).eq st
    rwa [hcc, andThen_next] at hpulls

/-! ## Entries -/

theorem State.acknowledge_eq (st : State) (ev : Event) :
    st.acknowledge ev = { st with nmiPending := st.nmiPending && ev != .nmi } := by
  cases ev with
  | nmi => exact congrArg (fun latch => { st with nmiPending := latch }) (Bool.and_false _).symm
  | firq | irq | swi | swi2 | swi3 =>
    exact congrArg (fun latch => { st with nmiPending := latch }) (Bool.and_true _).symm

theorem State.maskFor_eq (st : State) (ev : Event) :
    st.maskFor ev = { st with cc := st.cc ||| masksOf ev } := by
  have hboth (cc : Byte) : putFlag .i true (putFlag .f true cc) = cc ||| 0x50#8 := BitVec.or_assoc cc 0x40#8 0x10#8
  cases ev with
  | nmi | firq | swi => exact congrArg (fun cc => { st with cc := cc }) (hboth st.cc)
  | irq => rfl
  | swi2 | swi3 => exact congrArg (fun cc => { st with cc := cc }) BitVec.or_zero.symm

theorem putFlag_entire (st : State) (ev : Event) : putFlag .e ev.entire st.cc = stackedCc st ev := by
  cases ev <;> rfl

/-- The registers an entry writes before it stacks: the NMI latch and E (R317, R324 to R326). -/
theorem acknowledge_setFlag_eq (st : State) (ev : Event) :
    (st.acknowledge ev).setFlag .e ev.entire =
      { st with cc := stackedCc st ev, nmiPending := st.nmiPending && ev != .nmi } := by
  rw [State.acknowledge_eq, ← putFlag_entire]
  rfl

theorem length_frameOf (st : State) (ev : Event) : (frameOf st ev).length = frameBytes ev := by
  cases ev <;> rfl

/-- The stacking of an entry: its frame written going down from S (R322, R323). -/
theorem stackFrame_eq (ev : Event) (st : State) :
    (if ev.entire then stackAll ((st.acknowledge ev).setFlag .e ev.entire)
      else stackFast ((st.acknowledge ev).setFlag .e ev.entire)) =
      andThen (writeDown (frameOf st ev).reverse (st.s - 1#16) st) fun t =>
        .next { t with cc := stackedCc st ev, nmiPending := st.nmiPending && ev != .nmi
                       s := st.s - BitVec.ofNat 16 (frameBytes ev) } := by
  have hupdate : RegisterUpdate fun t =>
      { t with cc := stackedCc st ev, nmiPending := st.nmiPending && ev != .nmi } :=
    ⟨fun _ => rfl, fun _ _ _ _ => rfl⟩
  have hpush (t : State) (ht : t = { st with cc := stackedCc st ev, nmiPending := st.nmiPending && ev != .nmi }) :
      (if ev.entire then stackAll t else stackFast t) = pushDown (frameOf st ev).reverse t := by
    subst ht
    cases ev with
    | firq => exact stackFast_eq _
    | nmi | irq | swi | swi2 | swi3 => exact stackAll_eq _
  rw [hpush _ (acknowledge_setFlag_eq st ev), acknowledge_setFlag_eq, pushDown,
    hupdate.writeDown (frameOf st ev).reverse (st.s - 1#16) st, andThen_assoc, List.length_reverse, length_frameOf]
  rfl

/-- The masks are set and PC is what the vector answers (R312, R314). -/
theorem takeVector_eq (ev : Event) (st : State) :
    takeVector ev st = andThen (readWord (vectorOf ev) st) fun p =>
      .next { p.2 with cc := st.cc ||| masksOf ev, pc := p.1 } := by
  have hupdate : RegisterUpdate fun t => { t with cc := st.cc ||| masksOf ev } :=
    ⟨fun _ => rfl, fun _ _ _ _ => rfl⟩
  have hvector : ev.vector = vectorOf ev := by cases ev <;> rfl
  rw [takeVector, jumpToVector, hvector, State.maskFor_eq, hupdate.readWord (vectorOf ev) st, andThen_assoc]
  rfl

/-- An entry writes its frame going down from S, then PC is what the vector answers (R291 to R293, R314, R322 to
R326). -/
theorem enterException_eq (ev : Event) (st : State) :
    enterException ev st =
      andThen (writeDown (frameOf st ev).reverse (st.s - 1#16) st) fun stacked =>
      andThen (readWord (vectorOf ev) stacked) fun p =>
      .next { p.2 with
        cc := stackedCc st ev ||| masksOf ev, s := st.s - BitVec.ofNat 16 (frameBytes ev)
        pc := p.1, nmiPending := st.nmiPending && ev != .nmi } := by
  have hupdate : RegisterUpdate fun t =>
      { t with cc := stackedCc st ev, nmiPending := st.nmiPending && ev != .nmi
               s := st.s - BitVec.ofNat 16 (frameBytes ev) } :=
    ⟨fun _ => rfl, fun _ _ _ _ => rfl⟩
  rw [enterException]
  dsimp only
  rw [stackFrame_eq, andThen_assoc]
  simp only [andThen_next, takeVector_eq, hupdate.readWord, andThen_assoc]

theorem exec_softwareInterrupt {ev : Event} {i : Instr} (h : softwareInterrupt ev i) (st : State) :
    exec i st = enterException ev st := by
  rcases h with ⟨rfl, rfl⟩ | ⟨rfl, rfl⟩ | ⟨rfl, rfl⟩ <;> rfl

/-! ## Where nothing answers -/

theorem pushDown_unmapped {vs : List Byte} {st : State} {k : Nat}
    (h : UnmappedGoingDown st (st.s - 1#16) vs.length k) :
    pushDown vs st = .fault (.unmapped (st.s - 1#16 - BitVec.ofNat 16 k)) := by
  rw [pushDown, writeDown_unmapped h]
  rfl

theorem pullUp_unmapped {k : Stack} {n j : Nat} {put : List Byte → State → State} {st : State}
    (h : UnmappedGoingUp st (st.sp k) n j) :
    pullUp k n put st = .fault (.unmapped (st.sp k + BitVec.ofNat 16 j)) := by
  rw [pullUp, readUp_unmapped h]
  rfl

theorem unmappedGoingUp_mono {st : State} {addr : Word} {n m k : Nat} (h : UnmappedGoingUp st addr n k)
    (hle : n ≤ m) : UnmappedGoingUp st addr m k := by
  obtain ⟨hk, hbefore, hat⟩ := h
  exact ⟨Nat.lt_of_lt_of_le hk hle, hbefore, hat⟩

theorem SameParams.unmappedGoingUp {st t : State} (h : SameParams st t) {addr : Word} {n k : Nat}
    (hup : UnmappedGoingUp st addr n k) : UnmappedGoingUp t addr n k := by
  obtain ⟨hk, hbefore, hat⟩ := hup
  exact ⟨hk, fun j hj => (h.mapped _).trans (hbefore j hj), (h.mapped _).trans hat⟩

theorem SameParams.mappedFrom {st t : State} (h : SameParams st t) {addr : Word} {n : Nat}
    (hmapped : MappedFrom st addr n) : MappedFrom t addr n :=
  fun k hk => (h.mapped _).trans (hmapped k hk)

/-- The addresses of a frame, counted down from the first byte pushed. -/
theorem frame_address {n j : Nat} (s : Word) (hj : j < n) :
    s - 1#16 - BitVec.ofNat 16 j = s - BitVec.ofNat 16 n + BitVec.ofNat 16 (n - 1 - j) := by
  have hn : BitVec.ofNat 16 n = 1#16 + BitVec.ofNat 16 j + BitVec.ofNat 16 (n - 1 - j) := by
    rw [show (1#16 : Word) = BitVec.ofNat 16 1 from rfl, ← BitVec.ofNat_add, ← BitVec.ofNat_add]
    congr 1
    omega
  rw [hn]
  abel

/-- Where a frame's addresses answer it is written. -/
theorem writeDown_frameOf {st : State} {ev : Event}
    (h : MappedFrom st (st.s - BitVec.ofNat 16 (frameBytes ev)) (frameBytes ev)) :
    ∃ stacked, writeDown (frameOf st ev).reverse (st.s - 1#16) st = .next stacked := by
  refine writeDown_mapped fun j hj => ?_
  rw [List.length_reverse, length_frameOf] at hj
  rw [frame_address st.s hj]
  exact h _ (by omega)

theorem jumpToVector_unmapped {st : State} {addr : Word} {k : Nat} (h : UnmappedGoingUp st addr 2 k) :
    jumpToVector addr st = .fault (.unmapped (addr + BitVec.ofNat 16 k)) := by
  rw [jumpToVector, readWord_unmapped h]
  rfl

/-- RTI stops where PC or CC lies at an address that does not answer, whatever E it pulls. -/
theorem returnFromException_unmapped_fast {st : State} {k : Nat} (h : UnmappedGoingUp st st.s 3 k) :
    returnFromException st = .fault (.unmapped (st.s + BitVec.ofNat 16 k)) := by
  cases hread : readByte st.s st with
  | next p =>
    obtain ⟨v, u⟩ := p
    rw [returnFromException_eq hread]
    split
    · exact pullUp_unmapped (unmappedGoingUp_mono h (by decide))
    · exact pullUp_unmapped h
  | fault r =>
    obtain ⟨hfirst, rfl⟩ := readByte_eq_fault.mp hread
    rcases unmappedGoingUp_succ h with ⟨rfl, -⟩ | ⟨-, -, hmapped, -⟩
    · simp [returnFromException, pullByteTo, pullByte, State.sp, hread]
    · rw [hfirst] at hmapped
      cases hmapped
  | refused r => exact absurd hread readByte_ne_refused

/-- Settles O12: each of them is a run of reads or writes, which stops at the first address that does not
answer. -/
theorem unmappedStacksAndVectorsFault : Obligations.UnmappedStacksAndVectorsFault := by
  intro st
  refine ⟨fun list k h => ?_, fun k h imm => ?_, fun ev k h => ?_, fun ev k hframe h => ?_,
    fun ev i h => exec_softwareInterrupt h st, fun list k h => ?_, fun k h => returnFromException_unmapped_fast h,
    fun v t k hread hentire h => ?_, fun k hreset h => ?_⟩
  · rw [← length_listDown list st] at h
    exact (pushList_eq list st).trans (pushDown_unmapped h)
  · change execCwai imm st = _
    rw [execCwai, stackAll_eq, pushDown_unmapped (k := k) h]
    rfl
  · rw [enterException_eq, writeDown_unmapped (k := k)]
    · rfl
    · rwa [List.length_reverse, length_frameOf]
  · obtain ⟨stacked, hwrite⟩ := writeDown_frameOf hframe
    rw [enterException_eq, hwrite, andThen_next,
      readWord_unmapped ((writeDown_sameParams hwrite).unmappedGoingUp h)]
    rfl
  · exact ((pullList_pulls list).eq st).trans (pullUp_unmapped h)
  · exact (returnFromException_eq hread).trans ((if_pos hentire).trans (pullUp_unmapped h))
  · rw [step, stepWith, if_pos hreset, resetMachine]
    exact jumpToVector_unmapped h

/-! ## Where something answers -/

theorem pullUp_mapped {k : Stack} {n : Nat} {st : State} (put : List Byte → State → State)
    (h : MappedFrom st (st.sp k) n) :
    ∃ bytes devices draws, bytes.length = n ∧
      AnsweredGoingUp st (st.sp k) bytes { st with devices := devices, draws := draws } ∧
      pullUp k n put st = .next
        ((put bytes { st with devices := devices, draws := draws }).setSp k (st.sp k + BitVec.ofNat 16 n)) := by
  obtain ⟨bytes, w, hreads⟩ := readUp_mapped h
  obtain ⟨hlength, hanswered⟩ := readUp_eq_next.mp hreads
  have hpull : pullUp k n put st = .next ((put bytes w).setSp k (st.sp k + BitVec.ofNat 16 n)) := by
    rw [pullUp, hreads, andThen_next]
  rw [readUp_frame hreads] at hanswered hpull
  exact ⟨bytes, _, _, hlength, hanswered, hpull⟩

/-- A frame written down from S lies below it: lowest byte first where there is RAM, nothing else changed. -/
theorem writeDown_frameStacked {frame : List Byte} {st u t : State}
    (h : writeDown frame.reverse (st.s - 1#16) st = .next u) (hmem : t.mem = u.mem)
    (hlength : frame.length ≤ 65536) : FrameStacked st t frame := by
  have hpeek (a : Word) : t.peek a = u.peek a := congrArg (Memory.read · a.toNat) hmem
  refine ⟨fun a houtside => (hpeek a).trans (writeDown_peek_other h fun j hj => ?_), fun hwf hram => ?_⟩
  · rw [List.length_reverse] at hj
    rw [frame_address st.s hj]
    exact houtside _ (by omega)
  · have hbase : st.s - 1#16 + 1#16 - BitVec.ofNat 16 frame.length = st.s - BitVec.ofNat 16 frame.length := by abel
    have hbytes := writeDown_codeBytes h hwf (by rwa [List.length_reverse]) fun j hj => by
      rw [List.length_reverse] at hj
      rw [frame_address st.s hj]
      exact hram _ (by omega)
    rwa [List.length_reverse, List.reverse_reverse, hbase, ← State.codeBytes_congr hmem] at hbytes

/-- An entry whose frame and vector are answered (R291 to R293, R314, R322 to R326). -/
theorem enterException_mapped {st : State} {ev : Event}
    (hframe : MappedFrom st (st.s - BitVec.ofNat 16 (frameBytes ev)) (frameBytes ev))
    (hvector : MappedFrom st (vectorOf ev) 2) :
    ∃ stacked handler w, writeDown (frameOf st ev).reverse (st.s - 1#16) st = .next stacked ∧
      readWord (vectorOf ev) stacked = .next (handler, w) ∧
      w = { st with mem := stacked.mem, devices := w.devices, draws := w.draws } ∧
      enterException ev st = .next { w with
        cc := stackedCc st ev ||| masksOf ev, s := st.s - BitVec.ofNat 16 (frameBytes ev)
        pc := handler, nmiPending := st.nmiPending && ev != .nmi } := by
  obtain ⟨stacked, hwrite⟩ := writeDown_frameOf hframe
  obtain ⟨handler, w, hread⟩ := readWord_mapped ((writeDown_sameParams hwrite).mappedFrom hvector)
  refine ⟨stacked, handler, w, hwrite, hread, ?_, ?_⟩
  · rw [readWord_frame hread, writeDown_frame hwrite]
  · rw [enterException_eq, hwrite, andThen_next, hread, andThen_next]

/-- Settles O14: each pull is a run of reads given to registers, each entry a run of writes and the vector. -/
theorem pullsAndEntriesCompleteWhateverAnswers : Obligations.PullsAndEntriesCompleteWhateverAnswers := by
  intro st
  refine ⟨fun list h => ?_, fun v v1 hread => ⟨fun hentire h => ?_, fun hfast h => ?_⟩, fun ev hframe hvector => ?_⟩
  · obtain ⟨bytes, devices, draws, hlength, hanswered, hpull⟩ := pullUp_mapped (k := .u) (putList list) h
    exact ⟨bytes, _, hlength, hanswered, rfl, ((pullList_pulls list).eq st).trans hpull⟩
  · obtain ⟨bytes, devices, draws, hlength, hanswered, hpull⟩ := pullUp_mapped (k := .s) putEntire h
    exact ⟨bytes, _, hlength, hanswered, rfl, (returnFromException_eq hread).trans ((if_pos hentire).trans hpull)⟩
  · obtain ⟨bytes, devices, draws, hlength, hanswered, hpull⟩ := pullUp_mapped (k := .s) putFast h
    have hnot : ¬ v.getLsbD 7 = true := by rw [hfast]; exact Bool.false_ne_true
    exact ⟨bytes, _, hlength, hanswered, rfl, (returnFromException_eq hread).trans ((if_neg hnot).trans hpull)⟩
  · obtain ⟨stacked, handler, w, hwrite, hread, hw, henter⟩ := enterException_mapped hframe hvector
    have hmem : w.mem = stacked.mem := by rw [hw]
    have hlength : (frameOf st ev).length ≤ 65536 := by
      rw [length_frameOf]
      cases ev <;> decide
    exact ⟨stacked, handler, w, _, writeDown_eq_next.mp hwrite, hread, hw, henter,
      fun i hi => (exec_softwareInterrupt hi st).trans henter, rfl, writeDown_frameStacked hwrite hmem hlength⟩

end Sys2Proof.Machine
end

section
/-! PROOFS. What is not RAM keeps its bytes in every step (R61, log 8, log 9). -/

namespace Sys2Proof.Machine

open Sys2Proof.Statements

/-- MemMap and every byte that is not RAM are the same in both states. -/
structure SameOutsideRam (st t : State) : Prop where
  map : t.map = st.map
  peek : ∀ addr, st.kindAt addr ≠ .ram → t.peek addr = st.peek addr

theorem SameOutsideRam.trans {st t w : State} (h : SameOutsideRam st t) (h' : SameOutsideRam t w) :
    SameOutsideRam st w where
  map := h'.map.trans h.map
  peek addr hkind := by
    have hkind' : t.kindAt addr ≠ .ram := by rwa [State.kindAt, h.map]
    rw [h'.peek addr hkind', h.peek addr hkind]

theorem sameOutsideRam_of_mem {st t : State} (hmap : t.map = st.map) (hmem : t.mem = st.mem) :
    SameOutsideRam st t :=
  ⟨hmap, fun addr _ => congrArg (Memory.read · addr.toNat) hmem⟩

theorem State.store_sameOutsideRam (st : State) (addr : Word) (v : Byte) :
    SameOutsideRam st (st.store addr v) where
  map := State.store_map st addr v
  peek b hkind := by
    by_cases hb : b = addr
    · subst hb
      exact congrArg (Memory.read · b.toNat) (State.store_mem_of_not_ram st b v hkind)
    · exact State.peek_store_other st addr b v hb

theorem writeDown_sameOutsideRam {vs : List Byte} {addr : Word} {st t : State}
    (h : writeDown vs addr st = .next t) : SameOutsideRam st t := by
  induction vs generalizing addr st with
  | nil =>
    cases h
    exact sameOutsideRam_of_mem rfl rfl
  | cons v vs ih =>
    obtain ⟨u, hwrite, hwrites⟩ := andThen_eq_next.mp h
    obtain ⟨-, rfl⟩ := writeByte_eq_next.mp hwrite
    exact (st.store_sameOutsideRam addr v).trans (ih hwrites)

/-- The operation leaves MemMap and every byte that is not RAM wherever it answers a state. -/
def KeepsOutsideRam (op : State → Result) : Prop := ∀ ⦃st t : State⦄, op st = .next t → SameOutsideRam st t

theorem KeepsOutsideRam.andThen {op f : State → Result} (hop : KeepsOutsideRam op) (hf : KeepsOutsideRam f) :
    KeepsOutsideRam fun st => andThen (op st) f := fun st t h => by
  obtain ⟨u, h0, h1⟩ := andThen_eq_next.mp h
  exact (hop h0).trans (hf h1)

theorem KeepsOutsideRam.direct {op : State → Result} (hop : KeepsOutsideRam op) (lo : Byte) :
    KeepsOutsideRam fun st => op (eaDirect lo st) := fun st _ h =>
  (sameOutsideRam_of_mem (st := st) (t := eaDirect lo st) rfl rfl).trans (hop h)

theorem KeepsOutsideRam.extended {op : State → Result} (hop : KeepsOutsideRam op) (addr : Word) :
    KeepsOutsideRam fun st => op (eaExtended addr st) := fun st _ h =>
  (sameOutsideRam_of_mem (st := st) (t := eaExtended addr st) rfl rfl).trans (hop h)

theorem eaIndexed_keepsOutsideRam (ix : Indexed) : KeepsOutsideRam (eaIndexed ix) := fun st t h => by
  rw [eaIndexed_frame h]
  exact sameOutsideRam_of_mem rfl rfl

theorem KeepsOutsideRam.indexed {op : State → Result} (hop : KeepsOutsideRam op) (ix : Indexed) :
    KeepsOutsideRam fun st => Machine.andThen (eaIndexed ix st) op :=
  (eaIndexed_keepsOutsideRam ix).andThen hop

theorem pushDown_keepsOutsideRam (vs : List Byte) : KeepsOutsideRam (pushDown vs) := fun st t h => by
  obtain ⟨u, hwrite, hnext⟩ := andThen_eq_next.mp h
  cases hnext
  exact (writeDown_sameOutsideRam hwrite).trans (sameOutsideRam_of_mem rfl rfl)

theorem enterException_keepsOutsideRam (ev : Event) : KeepsOutsideRam (enterException ev) := fun st t h => by
  rw [enterException_eq] at h
  obtain ⟨stacked, hwrite, hrest⟩ := andThen_eq_next.mp h
  obtain ⟨⟨handler, w⟩, hread, hnext⟩ := andThen_eq_next.mp hrest
  cases hnext
  have hw : SameOutsideRam stacked w := by
    rw [readWord_frame hread]
    exact sameOutsideRam_of_mem rfl rfl
  exact (writeDown_sameOutsideRam hwrite).trans (hw.trans (sameOutsideRam_of_mem rfl rfl))

theorem storeWordAt_keepsOutsideRam (get : State → Word) : KeepsOutsideRam (storeWordAt get) := fun st t h => by
  obtain ⟨-, -, rfl⟩ := storeWordAt_eq_next.mp h
  exact (st.store_sameOutsideRam _ _).trans
    ((State.store_sameOutsideRam _ _ _).trans (sameOutsideRam_of_mem rfl rfl))

theorem shiftLeftAt_keepsOutsideRam : KeepsOutsideRam shiftLeftAt := fun st t h => by
  obtain ⟨⟨m, u⟩, hread, hrest⟩ := andThen_eq_next.mp h
  obtain ⟨w, hwrite, hnext⟩ := andThen_eq_next.mp hrest
  obtain ⟨-, rfl⟩ := writeByte_eq_next.mp hwrite
  cases hnext
  have hu : SameOutsideRam st u := by
    rw [readByte_frame hread]
    exact sameOutsideRam_of_mem rfl rfl
  exact hu.trans ((u.store_sameOutsideRam _ _).trans (sameOutsideRam_of_mem rfl rfl))

theorem execCwai_keepsOutsideRam (imm : Byte) : KeepsOutsideRam (execCwai imm) := fun st t h => by
  obtain ⟨u, hstack, hnext⟩ := andThen_eq_next.mp h
  cases hnext
  rw [stackAll_eq] at hstack
  have hmasked : SameOutsideRam st (State.setFlag { st with cc := st.cc &&& imm } .e true) :=
    sameOutsideRam_of_mem rfl rfl
  exact hmasked.trans ((pushDown_keepsOutsideRam _ hstack).trans (sameOutsideRam_of_mem rfl rfl))

/-- An instruction that stores nothing leaves all memory; one that stores does so by writes (R34). -/
theorem exec_keepsOutsideRam (i : Instr) : KeepsOutsideRam (exec i) := by
  intro st t h
  cases hstore : canStore i with
  | false => exact sameOutsideRam_of_mem (exec_keepsParams i h).map ((exec_effect h).mem hstore)
  | true =>
    cases i with
    | aslDir lo => exact shiftLeftAt_keepsOutsideRam.direct lo h
    | aslExt addr => exact shiftLeftAt_keepsOutsideRam.extended addr h
    | aslIdx ix => exact shiftLeftAt_keepsOutsideRam.indexed ix h
    | stdDir lo | stxDir lo | stuDir lo => exact (storeWordAt_keepsOutsideRam _).direct lo h
    | stdExt addr | stxExt addr | stuExt addr => exact (storeWordAt_keepsOutsideRam _).extended addr h
    | stdIdx ix | stxIdx ix | stuIdx ix => exact (storeWordAt_keepsOutsideRam _).indexed ix h
    | pshs list => exact pushDown_keepsOutsideRam _ ((pushList_eq list st).symm.trans h)
    | swi => exact enterException_keepsOutsideRam .swi h
    | swi2 => exact enterException_keepsOutsideRam .swi2 h
    | swi3 => exact enterException_keepsOutsideRam .swi3 h
    | cwai imm => exact execCwai_keepsOutsideRam imm h
    | _ => cases hstore

theorem executeOne_keepsOutsideRam : KeepsOutsideRam executeOne := fun st t h => by
  obtain ⟨⟨i, u⟩, hfetch, hexec⟩ := andThen_eq_next.mp h
  have hu : SameOutsideRam st u := by
    rw [fetchInstr_frame hfetch]
    exact sameOutsideRam_of_mem rfl rfl
  exact hu.trans (exec_keepsOutsideRam i hexec)

theorem cwaiWaitStep_keepsOutsideRam (inp : EnvInput) : KeepsOutsideRam (cwaiWaitStep inp) := fun st t h => by
  unfold cwaiWaitStep at h
  split at h
  next ev _ =>
    obtain ⟨u, hvector, hnext⟩ := andThen_eq_next.mp h
    cases hnext
    have hjump := jumpToVector_frame hvector
    refine sameOutsideRam_of_mem ?_ ?_ <;> rw [hjump] <;> simp
  next =>
    cases h
    exact sameOutsideRam_of_mem rfl rfl

theorem syncWaitStep_keepsOutsideRam (inp : EnvInput) : KeepsOutsideRam (syncWaitStep inp) := fun st t h => by
  unfold syncWaitStep at h
  split at h <;> cases h <;> exact sameOutsideRam_of_mem rfl rfl

theorem boundary_keepsOutsideRam (inp : EnvInput) : KeepsOutsideRam (boundary executeOne inp) := fun st t h => by
  unfold boundary at h
  split at h
  next =>
    split at h
    next ev _ => exact enterException_keepsOutsideRam ev h
    next => exact executeOne_keepsOutsideRam h
  next => exact syncWaitStep_keepsOutsideRam inp h
  next => exact cwaiWaitStep_keepsOutsideRam inp h

/-- Settles O16: RESET leaves memory, and all a boundary can do leaves what is not RAM. -/
theorem noStepChangesMemoryOutsideRam : Obligations.NoStepChangesMemoryOutsideRam := by
  intro st t addr h hkind
  unfold step stepWith at h
  split at h
  · obtain ⟨-, -, -, -, -, -, hmem, -, -⟩ := resetMachine_frame h
    exact congrArg (Memory.read · addr.toNat) hmem
  · have hlatch : SameOutsideRam st (st.dropInput.latchNmi st.input) :=
      sameOutsideRam_of_mem (by simp) (by simp)
    exact (hlatch.trans (boundary_keepsOutsideRam _ h)).peek addr hkind

end Sys2Proof.Machine
end

section
/-! PROOFS. An operand in memory, whatever answers: the addressing mode computes its address, reading the
pointer of an indirect form (R176, R181), and the instruction acts there. -/

namespace Sys2Proof.Machine

open Sys2Proof.Statements

/-! ## Reaching an operand, whatever answers -/

/-- The addressing mode of an operand: the first two phases of R181. -/
def reachOperand (st : State) : MemOperand → Result
  | .direct lo => .next (eaDirect lo st)
  | .extended addr => .next (eaExtended addr st)
  | .indexed ix => eaIndexed ix st

theorem stepped_registerUpdate (ix : Indexed) : RegisterUpdate fun st => stepped st ix := by
  have auto (r : PtrReg) (step : Word → Word) : RegisterUpdate fun st => st.setPtr r (step (st.ptr r)) := by
    cases r <;> exact ⟨fun _ => rfl, fun _ _ _ _ => rfl⟩
  cases ix with
  | inc1 r => exact auto r (· + 1#16)
  | inc2 r | inc2Ind r => exact auto r (· + 2#16)
  | dec1 r => exact auto r (· - 1#16)
  | dec2 r | dec2Ind r => exact auto r (· - 2#16)
  | _ => exact ⟨fun _ => rfl, fun _ _ _ _ => rfl⟩

/-- An indirect form reads its pointer at the plain address, then steps and holds (R176). -/
theorem eaIndexed_indirect {ix : Indexed} (h : isIndirect ix = true) (st : State) :
    eaIndexed ix st = andThen (readWord (plainAddress st ix) st) fun p =>
      .next { stepped p.2 ix with temp := p.1 } := by
  have hheld : RegisterUpdate fun t => (stepped t ix).hold (plainAddress st ix) :=
    RegisterUpdate.comp (g := fun t => t.hold (plainAddress st ix)) ⟨fun _ => rfl, fun _ _ _ _ => rfl⟩
      (stepped_registerUpdate ix)
  rw [eaIndexed_eq, if_pos h, eaIndirect]
  refine (congrArg (andThen · _) (hheld.readWord (plainAddress st ix) st)).trans ?_
  rw [andThen_assoc]
  rfl

theorem reachOperand_eq_next {o : MemOperand} {st u : State} : reachOperand st o = .next u ↔ o.Reaches st u := by
  cases o with
  | direct lo | extended addr =>
    simp only [reachOperand, MemOperand.Reaches, Host.Outcome.next.injEq]
    exact eq_comm
  | indexed ix =>
    cases hind : isIndirect ix with
    | false =>
      simp only [reachOperand, MemOperand.Reaches, eaIndexed_eq, hind, Bool.false_eq_true, if_false,
        Host.Outcome.next.injEq]
      exact eq_comm
    | true =>
      simp only [reachOperand, MemOperand.Reaches, eaIndexed_indirect hind, hind, if_true, andThen_eq_next,
        Prod.exists, Host.Outcome.next.injEq, eq_comm (b := u)]

theorem reachOperand_mapped {o : MemOperand} {st : State} (h : o.PointerMapped st) :
    ∃ u, reachOperand st o = .next u := by
  cases o with
  | direct lo | extended addr => exact ⟨_, rfl⟩
  | indexed ix =>
    rw [reachOperand]
    cases hind : isIndirect ix with
    | false => exact ⟨heldPlain st ix, by rw [eaIndexed_eq, hind]; rfl⟩
    | true =>
      obtain ⟨ptr, w, hread⟩ := readWord_mapped (h hind)
      exact ⟨_, by rw [eaIndexed_indirect hind, hread, andThen_next]⟩

theorem reachOperand_ready {o : MemOperand} {st : State} (h : o.Ready st) :
    reachOperand st o = .next (o.after st) := by
  cases o with
  | direct lo | extended addr => rfl
  | indexed ix => exact eaIndexed_ready h

theorem reachOperand_frame {o : MemOperand} {st u : State} (h : reachOperand st o = .next u) :
    AddressFrame st u := by
  cases o with
  | direct lo | extended addr =>
    cases h
    rfl
  | indexed ix => exact eaIndexed_frame h

theorem AddressFrame.sameParams {st u : State} (h : AddressFrame st u) : SameParams st u :=
  sameParams_of_eq h ⟨rfl, rfl⟩

theorem AddressFrame.cc {st u : State} (h : AddressFrame st u) : u.cc = st.cc := by rw [h]

theorem AddressFrame.d {st u : State} (h : AddressFrame st u) : u.d = st.d := by
  rw [h]
  rfl

theorem AddressFrame.peek {st u : State} (h : AddressFrame st u) (addr : Word) : u.peek addr = st.peek addr := by
  rw [h]
  rfl

/-! ## The instructions with an operand in memory -/

section
variable (o : MemOperand) (st : State)

theorem exec_ldaOf_reach : exec (ldaOf o) st = andThen (reachOperand st o) (loadByteAt State.loadA) := by
  cases o <;> rfl

theorem exec_ldbOf_reach : exec (ldbOf o) st = andThen (reachOperand st o) (loadByteAt State.loadB) := by
  cases o <;> rfl

theorem exec_aslOf_reach : exec (aslOf o) st = andThen (reachOperand st o) shiftLeftAt := by
  cases o <;> rfl

theorem exec_lddOf_reach : exec (lddOf o) st = andThen (reachOperand st o) (loadWordAt State.loadD) := by
  cases o <;> rfl

theorem exec_ldxOf_reach : exec (ldxOf o) st = andThen (reachOperand st o) (loadWordAt State.loadX) := by
  cases o <;> rfl

theorem exec_ldyOf_reach : exec (ldyOf o) st = andThen (reachOperand st o) (loadWordAt State.loadY) := by
  cases o <;> rfl

theorem exec_lduOf_reach : exec (lduOf o) st = andThen (reachOperand st o) (loadWordAt State.loadU) := by
  cases o <;> rfl

theorem exec_stdOf_reach : exec (stdOf o) st = andThen (reachOperand st o) (storeWordAt State.d) := by
  cases o <;> rfl

theorem exec_stxOf_reach : exec (stxOf o) st = andThen (reachOperand st o) (storeWordAt State.x) := by
  cases o <;> rfl

theorem exec_stuOf_reach : exec (stuOf o) st = andThen (reachOperand st o) (storeWordAt State.u) := by
  cases o <;> rfl

end

/-! ## Operands that do not answer -/

theorem loadByteAt_unmapped (put : State → Byte → State) {u : State} (h : u.mapped u.temp = false) :
    loadByteAt put u = .fault (.unmapped u.temp) := by
  rw [loadByteAt, readByte_unmapped h]
  rfl

theorem shiftLeftAt_unmapped {u : State} (h : u.mapped u.temp = false) :
    shiftLeftAt u = .fault (.unmapped u.temp) := by
  rw [shiftLeftAt, readByte_unmapped h]
  rfl

theorem loadWordAt_unmapped (put : State → Word → State) {u : State} {k : Nat}
    (h : UnmappedGoingUp u u.temp 2 k) :
    loadWordAt put u = .fault (.unmapped (u.temp + BitVec.ofNat 16 k)) := by
  rw [loadWordAt, readWord_unmapped h]
  rfl

theorem storeWordAt_unmapped (get : State → Word) {u : State} {k : Nat} (h : UnmappedGoingUp u u.temp 2 k) :
    storeWordAt get u = .fault (.unmapped (u.temp + BitVec.ofNat 16 k)) := by
  rw [storeWordAt, writeWord_unmapped _ h]
  rfl

/-- A byte instruction reaches its operand and stops there if it does not answer. -/
theorem exec_byteInstrs {o : MemOperand} {i : Instr} (h : i ∈ byteInstrs o) :
    ∃ op : State → Result, (∀ st, exec i st = andThen (reachOperand st o) op) ∧
      ∀ u, u.mapped u.temp = false → op u = .fault (.unmapped u.temp) := by
  simp only [byteInstrs, List.mem_cons, List.not_mem_nil, or_false] at h
  rcases h with rfl | rfl | rfl
  · exact ⟨_, exec_ldaOf_reach o, fun u => loadByteAt_unmapped _⟩
  · exact ⟨_, exec_ldbOf_reach o, fun u => loadByteAt_unmapped _⟩
  · exact ⟨_, exec_aslOf_reach o, fun u => shiftLeftAt_unmapped⟩

/-- A 16-bit instruction reaches its operand and stops at the first byte there that does not answer. -/
theorem exec_wordInstrs {o : MemOperand} {i : Instr} (h : i ∈ wordInstrs o) :
    ∃ op : State → Result, (∀ st, exec i st = andThen (reachOperand st o) op) ∧
      ∀ u k, UnmappedGoingUp u u.temp 2 k → op u = .fault (.unmapped (u.temp + BitVec.ofNat 16 k)) := by
  simp only [wordInstrs, List.mem_cons, List.not_mem_nil, or_false] at h
  rcases h with rfl | rfl | rfl | rfl | rfl | rfl | rfl
  · exact ⟨_, exec_lddOf_reach o, fun u k => loadWordAt_unmapped _⟩
  · exact ⟨_, exec_ldxOf_reach o, fun u k => loadWordAt_unmapped _⟩
  · exact ⟨_, exec_ldyOf_reach o, fun u k => loadWordAt_unmapped _⟩
  · exact ⟨_, exec_lduOf_reach o, fun u k => loadWordAt_unmapped _⟩
  · exact ⟨_, exec_stdOf_reach o, fun u k => storeWordAt_unmapped _⟩
  · exact ⟨_, exec_stxOf_reach o, fun u k => storeWordAt_unmapped _⟩
  · exact ⟨_, exec_stuOf_reach o, fun u k => storeWordAt_unmapped _⟩

/-- Every instruction with an indexed operand begins with the address computation of its form (R181). -/
theorem exec_indexedInstrs {ix : Indexed} {i : Instr} (h : i ∈ indexedInstrs ix) :
    ∃ op : State → Result, ∀ st, exec i st = andThen (eaIndexed ix st) op := by
  simp only [indexedInstrs, List.mem_cons, List.mem_append] at h
  rcases h with rfl | rfl | h | h
  · exact ⟨.next, fun st => by rw [exec_postbyteRow, andThen_pure]⟩
  · exact ⟨_, fun _ => rfl⟩
  · obtain ⟨op, hexec, -⟩ := exec_byteInstrs h
    exact ⟨op, hexec⟩
  · obtain ⟨op, hexec, -⟩ := exec_wordInstrs h
    exact ⟨op, hexec⟩

theorem eaIndexed_unmapped {ix : Indexed} {st : State} {k : Nat} (hind : isIndirect ix = true)
    (h : UnmappedGoingUp st (plainAddress st ix) 2 k) :
    eaIndexed ix st = .fault (.unmapped (plainAddress st ix + BitVec.ofNat 16 k)) := by
  rw [eaIndexed_indirect hind, readWord_unmapped h]
  rfl

/-! ## Operands that answer -/

/-- The flags of an 8-bit load as the statements say them (R211). -/
theorem moveFlags_moveFlags8 (v cc : Byte) : MoveFlags v.msb (v == 0#8) cc (moveFlags8 v cc) := by
  refine ⟨getFlag_moveFlags8 v cc .n, getFlag_moveFlags8 v cc .z, getFlag_moveFlags8 v cc .v, ?_⟩
  rintro g (rfl | rfl | rfl | rfl | rfl) <;> exact getFlag_moveFlags8 v cc _

theorem loadByteAt_answered (put : State → Byte → State) {u w : State} {v : Byte}
    (h : readByte u.temp u = .next (v, w)) : loadByteAt put u = .next (put w v) := by
  rw [loadByteAt, h, andThen_next]

theorem loadWordAt_answered (put : State → Word → State) {u w : State} {v : Word}
    (h : readWord u.temp u = .next (v, w)) : loadWordAt put u = .next (put w v) := by
  rw [loadWordAt, h, andThen_next]

/-- A store whose two bytes are answered: the one write of the word, its flags, no other byte of memory
changed (R207 to R209, R211). -/
theorem storeWordAt_answered (get : State → Word) {u : State} (h : MappedFrom u u.temp 2) :
    ∃ y t, writeWord u.temp (get u) u = .next y ∧ storeWordAt get u = .next t ∧ t = { y with cc := t.cc } ∧
      MoveFlags (get u).msb (get u == 0#16) u.cc t.cc ∧ SameMemoryOutside u t u.temp 2 := by
  have hwrite := writeWord_mapped (get u) h
  refine ⟨_, _, hwrite, by rw [storeWordAt, hwrite, andThen_next], rfl, ?_, fun a houtside => ?_⟩
  · simp only [State.store_cc]
    exact moveFlags_moveFlags16 _ _
  · have h0 : a ≠ u.temp := by simpa using houtside 0 (by decide)
    have h1 : a ≠ u.temp + 1#16 := houtside 1 (by decide)
    exact (State.peek_store_other _ _ _ _ h1).trans (State.peek_store_other _ _ _ _ h0)

theorem aslResult_toNat (m : Byte) : (aslResult m).toNat = 2 * m.toNat % 256 := by
  rw [aslResult, BitVec.toNat_shiftLeft, Nat.shiftLeft_eq, Nat.mul_comm]

theorem aslResult_eq_add (m : Byte) : aslResult m = m + m := by
  apply BitVec.eq_of_toNat_eq
  rw [aslResult_toNat, BitVec.toNat_add, Nat.two_mul]

/-- ASL where its operand is answered: one read, one write of the doubled byte to the same address, its flags,
no other byte of memory changed (R59, R232). -/
theorem shiftLeftAt_answered {u w : State} {v : Byte} (hread : readByte u.temp u = .next (v, w))
    (hmapped : u.mapped u.temp = true) :
    ∃ y t, writeByte u.temp (v + v) w = .next y ∧ shiftLeftAt u = .next t ∧
      t = { y with cc := t.cc, draws := t.draws } ∧ SameMemoryOutside u t u.temp 1 ∧
      getFlag t.cc .c = v.getLsbD 7 ∧ getFlag t.cc .n = v.getLsbD 6 ∧
      getFlag t.cc .z = decide (v + v = 0#8) ∧
      getFlag t.cc .v = (v.getLsbD 7 ^^ v.getLsbD 6) ∧
      ∀ g, g = Flag.e ∨ g = Flag.f ∨ g = Flag.i → getFlag t.cc g = getFlag u.cc g := by
  have hw := readByte_frame hread
  have htemp : w.temp = u.temp := by rw [hw]
  have hcc : w.cc = u.cc := by rw [hw]
  have hmem : w.mem = u.mem := by rw [hw]
  have hwrite : writeByte u.temp (v + v) w = .next (w.store u.temp (v + v)) :=
    writeByte_mapped (((readByte_sameParams hread).mapped _).trans hmapped)
  have hshift : shiftLeftAt u = .next
      { (w.store u.temp (v + v)).drawBit.2 with
        cc := aslFlags v (w.store u.temp (v + v)).drawBit.1 (w.store u.temp (v + v)).cc } := by
    rw [shiftLeftAt, hread, andThen_next]
    dsimp only
    rw [htemp, aslResult_eq_add, hwrite, andThen_next]
  refine ⟨_, _, hwrite, hshift, rfl, fun a houtside => ?_, ?_⟩
  · have h0 : a ≠ u.temp := by simpa using houtside 0 (by decide)
    exact (State.peek_store_other w u.temp a (v + v) h0).trans (congrArg (Memory.read · a.toNat) hmem)
  · simp only [State.store_cc, hcc]
    refine ⟨getFlag_aslFlags _ _ _ .c, (getFlag_aslFlags _ _ _ .n).trans ?_, (getFlag_aslFlags _ _ _ .z).trans ?_,
      getFlag_aslFlags _ _ _ .v, ?_⟩
    · simp [aslResult, BitVec.msb_eq_getLsbD_last]
    · rw [aslResult_eq_add]
      rfl
    · rintro g (rfl | rfl | rfl) <;> exact getFlag_aslFlags _ _ _ _

/-- Settles O38: the operand is reached without side effect, and a byte of RAM or ROM answers its read and takes
its write without touching a device. -/
theorem aslDoublesTheByteInMemory : Obligations.AslDoublesTheByteInMemory := by
  intro st o hready hdata
  have hframe := reachOperand_frame (reachOperand_ready hready)
  have hbacked : (o.after st).backed (o.after st).temp = true := by simpa using hdata
  have hread := readByte_backed hbacked
  obtain ⟨y, t, hwrite, hshift, ht, hmem, hc, hn, hz, hv, hkept⟩ :=
    shiftLeftAt_answered hread (State.mapped_of_backed hbacked)
  rw [MemOperand.after_temp, hframe.peek] at hwrite hc hn hz hv
  rw [MemOperand.after_temp] at hmem
  obtain ⟨-, rfl⟩ := writeByte_eq_next.mp hwrite
  have hkind : (o.after st).kindAt (o.ea st) = st.kindAt (o.ea st) := hframe.sameParams.kindAt _
  have hdouble : (st.peek (o.ea st) + st.peek (o.ea st)).toNat = 2 * (st.peek (o.ea st)).toNat % 256 := by
    rw [← aslResult_eq_add, aslResult_toNat]
  refine ⟨t, by rw [exec_aslOf_reach, reachOperand_ready hready, andThen_next, hshift], ?_,
    fun a houtside => (hmem a houtside).trans (hframe.peek a), fun hwf hram => ?_, hc, hn, ?_, hv,
    fun g hg => (hkept g hg).trans (congrArg (getFlag · g) (MemOperand.after_cc st o))⟩
  · have hnodevice : ∀ d, (o.after st).kindAt (o.ea st) ≠ .device d := fun d hd => by
      rw [hkind] at hd
      simp [State.backed, hd] at hdata
    have hdevices := (State.store_devices_of_not_device (o.after st) (o.ea st)
      (st.peek (o.ea st) + st.peek (o.ea st)) hnodevice).1
    rw [ht, State.store_eq, hdevices]
  · have hpeek : t.peek (o.ea st) = st.peek (o.ea st) + st.peek (o.ea st) := by
      rw [ht]
      refine State.peek_store_ram (o.after st) (o.ea st) _ ?_ (hkind.trans hram)
      rw [hframe]
      exact hwf
    rw [hpeek, hdouble]
  · rw [hz, ← hdouble]
    exact decide_eq_decide.mpr ⟨fun h => congrArg BitVec.toNat h, fun h => BitVec.eq_of_toNat_eq h⟩

/-- A store instruction whose operand is reached and answered (R181, R207 to R209, R211). -/
theorem exec_store_answered (get : State → Word) {i : Instr} {o : MemOperand} {st u : State}
    (hexec : exec i st = andThen (reachOperand st o) (storeWordAt get)) (hreach : reachOperand st o = .next u)
    (hmapped : MappedFrom st u.temp 2) :
    ∃ y t, writeWord u.temp (get u) u = .next y ∧ exec i st = .next t ∧ t = { y with cc := t.cc } ∧
      MoveFlags (get u).msb (get u == 0#16) st.cc t.cc ∧ SameMemoryOutside st t u.temp 2 := by
  have hframe := reachOperand_frame hreach
  obtain ⟨y, t, hwrite, hstore, ht, hflags, hmem⟩ :=
    storeWordAt_answered get (hframe.sameParams.mappedFrom hmapped)
  rw [hframe.cc] at hflags
  exact ⟨y, t, hwrite, by rw [hexec, hreach, andThen_next, hstore], ht, hflags,
    fun a houtside => (hmem a houtside).trans (hframe.peek a)⟩

/-- LEAX where its form is answered (R182, R210). -/
theorem exec_leax_reach {ix : Indexed} {st u : State} (h : reachOperand st (.indexed ix) = .next u) :
    exec (.leax ix) st = .next { u with x := u.temp, cc := leaFlags u.temp u.cc } := by
  have hea : eaIndexed ix st = .next u := h
  change execLeax ix st = _
  rw [execLeax, hea, andThen_next]

/-- Settles O13: the addressing mode is answered, then the one access at the address is. -/
theorem deviceAccessesComplete : Obligations.DeviceAccessesComplete := by
  intro st o hpointer
  obtain ⟨u, hreach⟩ := reachOperand_mapped hpointer
  have hframe := reachOperand_frame hreach
  have hcc : u.cc = st.cc := hframe.cc
  refine ⟨u, reachOperand_eq_next.mp hreach, ?_, fun hmapped => ?_, fun hmapped => ⟨?_, ?_⟩⟩
  · rintro ix rfl
    refine ⟨(exec_postbyteRow ix st).trans hreach, _, exec_leax_reach hreach, rfl, fun g => ?_⟩
    rw [getFlag_leaFlags, hcc]
    rfl
  · have hmapped' : u.mapped u.temp = true := (hframe.sameParams.mapped _).trans hmapped
    obtain ⟨v, w, hread⟩ := readByte_mapped hmapped'
    have hw := readByte_frame hread
    have hwcc : w.cc = st.cc := by rw [hw, hcc]
    have hflags : MoveFlags v.msb (v == 0#8) st.cc (moveFlags8 v w.cc) := by
      rw [← hwcc]
      exact moveFlags_moveFlags8 v w.cc
    obtain ⟨y, t, hwrite, hshift, ht, hmem, hc, hn, hz, hv, hkept⟩ := shiftLeftAt_answered hread hmapped'
    refine ⟨v, w, hread, hw, ⟨w.loadA v, ?_, rfl, hflags⟩, ⟨w.loadB v, ?_, rfl, hflags⟩, y, t, hwrite, ?_, ht,
      fun a houtside => (hmem a houtside).trans (hframe.peek a), hc, hn, hz, hv,
      fun g hg => (hkept g hg).trans (congrArg (getFlag · g) hcc)⟩
    · rw [exec_ldaOf_reach, hreach, andThen_next, loadByteAt_answered _ hread]
    · rw [exec_ldbOf_reach, hreach, andThen_next, loadByteAt_answered _ hread]
    · rw [exec_aslOf_reach, hreach, andThen_next, hshift]
  · obtain ⟨v, w, hread⟩ := readWord_mapped (hframe.sameParams.mappedFrom hmapped)
    have hw := readWord_frame hread
    have hwcc : w.cc = st.cc := by rw [hw, hcc]
    have hflags : MoveFlags v.msb (v == 0#16) st.cc (moveFlags16 v w.cc) := by
      rw [← hwcc]
      exact moveFlags_moveFlags16 v w.cc
    refine ⟨v, w, hread, hw, ⟨w.loadD v, ?_, rfl, hflags⟩, ⟨w.loadX v, ?_, rfl, hflags⟩,
      ⟨w.loadY v, ?_, rfl, hflags⟩, w.loadU v, ?_, rfl, hflags⟩
    · rw [exec_lddOf_reach, hreach, andThen_next, loadWordAt_answered _ hread]
    · rw [exec_ldxOf_reach, hreach, andThen_next, loadWordAt_answered _ hread]
    · rw [exec_ldyOf_reach, hreach, andThen_next, loadWordAt_answered _ hread]
    · rw [exec_lduOf_reach, hreach, andThen_next, loadWordAt_answered _ hread]
  · rintro i v (⟨rfl, rfl⟩ | ⟨rfl, rfl⟩ | ⟨rfl, rfl⟩)
    · have hd : u.d = st.a ++ st.b := hframe.d
      rw [← hd]
      exact exec_store_answered State.d (exec_stdOf_reach o st) hreach hmapped
    · exact exec_store_answered State.x (exec_stxOf_reach o st) hreach hmapped
    · exact exec_store_answered State.u (exec_stuOf_reach o st) hreach hmapped

end Sys2Proof.Machine
end

section
/-! PROOFS. Bytes too few for an instruction are fewer than five, and so is every front of them (R80, R82): the
fetch reads on until it meets an address that does not answer. -/

namespace Sys2Proof

/-! ## Lists that end too early -/

variable {α : Type}

/-- Every list too short for the reader has fewer than `m` bytes, and its fronts are too short as well. -/
def ShortBelow (m : Nat) (p : Reader α) : Prop :=
  ∀ ⦃bytes : List Byte⦄, p bytes = .error .truncated →
    bytes.length < m ∧ ∀ n, p (bytes.take n) = .error .truncated

theorem ShortBelow.mono {m m' : Nat} {p : Reader α} (h : ShortBelow m p) (hle : m ≤ m') : ShortBelow m' p :=
  fun _ htrunc => ⟨Nat.lt_of_lt_of_le (h htrunc).1 hle, (h htrunc).2⟩

/-- A reader for which no list is too short. -/
theorem shortBelow_of_ne {m : Nat} {p : Reader α} (h : ∀ bytes, p bytes ≠ .error .truncated) : ShortBelow m p :=
  fun bytes htrunc => absurd htrunc (h bytes)

/-- A byte, and then as another reader that the byte chooses. -/
theorem shortBelow_cons {m : Nat} {p : Reader α} {q : Byte → Reader α} (hq : ∀ b, ShortBelow m (q b))
    (hcons : ∀ b rest, p (b :: rest) = q b rest) (hnil : p [] = .error .truncated) : ShortBelow (m + 1) p := by
  intro bytes htrunc
  cases bytes with
  | nil => exact ⟨Nat.succ_pos m, fun n => by rw [List.take_nil, hnil]⟩
  | cons b rest =>
    rw [hcons] at htrunc
    obtain ⟨hlength, hfronts⟩ := hq b htrunc
    refine ⟨Nat.succ_lt_succ hlength, fun n => ?_⟩
    cases n with
    | zero => exact hnil
    | succ n => exact (hcons b _).trans (hfronts n)

theorem shortBelow_byte {p : Reader α} {f : Byte → α} (hcons : ∀ b rest, p (b :: rest) = .ok (f b, rest))
    (hnil : p [] = .error .truncated) : ShortBelow 1 p :=
  shortBelow_cons (q := fun b rest => .ok (f b, rest)) (fun _ => shortBelow_of_ne fun _ => nofun) hcons hnil

theorem shortBelow_word {p : Reader α} {f : Word → α}
    (hcons : ∀ h l rest, p (h :: l :: rest) = .ok (f (joinBytes h l), rest))
    (hone : ∀ h, p [h] = .error .truncated) (hnil : p [] = .error .truncated) : ShortBelow 2 p :=
  shortBelow_cons (q := fun h rest => p (h :: rest)) (fun h => shortBelow_byte (hcons h) (hone h))
    (fun _ _ => rfl) hnil

/-! ## The decoder -/

theorem readShape_shortBelow (pb : Byte) (shape : PostbyteShape) : ShortBelow 2 (readShape pb shape) := by
  cases shape with
  | bare f | illegal => exact shortBelow_of_ne fun _ => nofun
  | byte f => exact (shortBelow_byte (fun _ _ => rfl) rfl).mono (by decide)
  | word f => exact shortBelow_word (fun _ _ _ => rfl) (fun _ => rfl) rfl

theorem decodeIndexed_shortBelow : ShortBelow 3 decodeIndexed := by
  refine shortBelow_cons (q := readAfterPostbyte) (fun pb => ?_) decodeIndexed_cons rfl
  unfold readAfterPostbyte
  dsimp only
  split
  · exact readShape_shortBelow pb _
  · exact shortBelow_of_ne fun _ => nofun

theorem decodeOperand_idx_truncated {f : Indexed → Instr} {bytes : List Byte} :
    decodeOperand (.idx f) bytes = .error .truncated ↔ decodeIndexed bytes = .error .truncated := by
  simp only [decodeOperand]
  cases decodeIndexed bytes <;> simp

theorem decodeOperand_shortBelow (shape : OpcodeShape) : ShortBelow 3 (decodeOperand shape) := by
  cases shape with
  | inh i => exact shortBelow_of_ne fun _ => nofun
  | imm8 f | dir f | list f | rel8 f => exact (shortBelow_byte (fun _ _ => rfl) rfl).mono (by decide)
  | imm16 f | ext f | rel16 f =>
    exact (shortBelow_word (fun _ _ _ => rfl) (fun _ => rfl) rfl).mono (by decide)
  | idx f =>
    intro bytes htrunc
    obtain ⟨hlength, hfronts⟩ := decodeIndexed_shortBelow (decodeOperand_idx_truncated.mp htrunc)
    exact ⟨hlength, fun n => decodeOperand_idx_truncated.mpr (hfronts n)⟩
  | pair f =>
    refine (shortBelow_cons (q := fun pb rest => decodeOperand (.pair f) (pb :: rest)) (fun pb => ?_)
      (fun _ _ => rfl) rfl).mono (by decide : 1 ≤ 3)
    refine shortBelow_of_ne fun rest => ?_
    simp only [decodeOperand]
    split <;> exact nofun

theorem decodeRow_shortBelow (opcode : List Byte) (row : Option OpcodeShape) :
    ShortBelow 3 (decodeRow opcode row) := by
  cases row with
  | some shape => exact decodeOperand_shortBelow shape
  | none => exact shortBelow_of_ne fun _ => nofun

theorem decodeAfter_shortBelow (b0 : Byte) : ShortBelow 4 (decodeAfter b0) := by
  by_cases h10 : b0 = 0x10#8
  · subst h10
    exact shortBelow_cons (q := fun b1 => decodeRow [0x10#8, b1] (opcodePage2 b1))
      (fun b1 => decodeRow_shortBelow _ _) (fun _ _ => rfl) rfl
  by_cases h11 : b0 = 0x11#8
  · subst h11
    exact shortBelow_cons (q := fun b1 => decodeRow [0x11#8, b1] (opcodePage3 b1))
      (fun b1 => decodeRow_shortBelow _ _) (fun _ _ => rfl) rfl
  have hrow : decodeAfter b0 = decodeRow [b0] (opcodePage1 b0) := by
    funext rest
    simp [decodeAfter, decode, h10, h11]
  rw [hrow]
  exact (decodeRow_shortBelow _ _).mono (by decide)

/-- Bytes that make no instruction yet are fewer than the longest instruction's (R80, R82). -/
theorem decode_shortBelow : ShortBelow maxInstrBytes decode :=
  shortBelow_cons decodeAfter_shortBelow (fun _ _ => rfl) rfl

end Sys2Proof

namespace Sys2Proof.Machine

open Sys2Proof.Statements

/-! ## The fetch -/

/-- The fetch with `fetched` read so far and `ahead` lying at PC, both together too short for an instruction:
it reads on and stops after them if nothing answers there. -/
theorem fetchFrom_unmapped {fetched ahead : List Byte} {st : State} {n : Nat}
    (hshort : decode (fetched ++ ahead) = .error .truncated) (hahead : st.codeBytes ahead.length st.pc = ahead)
    (hbacked : BackedFrom st st.pc ahead.length)
    (hend : st.mapped (st.pc + BitVec.ofNat 16 ahead.length) = false) (hn : ahead.length < n) :
    fetchFrom n fetched st = .fault (.unmapped (st.pc + BitVec.ofNat 16 ahead.length)) := by
  induction ahead generalizing fetched st n with
  | nil =>
    obtain ⟨n, rfl⟩ : ∃ k, n = k + 1 := ⟨n - 1, by simp at hn; omega⟩
    have hfetch : fetchByte st = .fault (.unmapped (st.pc + BitVec.ofNat 16 0)) := by
      rw [fetchByte, readByte_unmapped (by simpa using hend)]
      simp
    simp only [fetchFrom, hfetch, andThen_fault, List.length_nil]
  | cons b ahead ih =>
    obtain ⟨n, rfl⟩ : ∃ k, n = k + 1 := ⟨n - 1, by simp at hn; omega⟩
    obtain ⟨hpc, hlater⟩ := backedFrom_succ hbacked
    obtain ⟨hb, hrest⟩ := List.cons.inj hahead
    have hsplit : fetched ++ b :: ahead = (fetched ++ [b]) ++ ahead := by simp
    rw [hsplit] at hshort
    have hfront : decode (fetched ++ [b]) = .error .truncated := by
      have h := (decode_shortBelow hshort).2 (fetched ++ [b]).length
      rwa [List.take_left] at h
    rw [List.length_cons, add_ofNat_succ] at hend ⊢
    simp only [fetchFrom, fetchByte_backed hpc, andThen_next, hb, hfront]
    exact ih (st := { st with pc := st.pc + 1#16 }) hshort ((st.codeBytes_setPc _ _ _).trans hrest) hlater hend
      (by simpa using hn)

theorem State.atFetch_mapped (st : State) (addr : Word) : st.atFetch.mapped addr = st.mapped addr := by
  simp [State.atFetch, State.dropInput, State.mapped, State.kindAt]

/-- A quiet step whose instruction runs into an address that does not answer (R57, R61). -/
theorem step_fetch_unmapped {st : State} {k : Nat} (hquiet : st.quiet = true) (hbacked : BackedFrom st st.pc k)
    (hshort : decode (st.codeBytes k st.pc) = .error .truncated)
    (hend : st.mapped (st.pc + BitVec.ofNat 16 k) = false) :
    step st = .fault (.unmapped (st.pc + BitVec.ofNat 16 k)) := by
  have hlength : (st.codeBytes k st.pc).length = k := st.codeBytes_length k st.pc
  have hk : k < maxInstrBytes := by
    rw [← hlength]
    exact (decode_shortBelow hshort).1
  have hfetch : fetchInstr st.atFetch = .fault (.unmapped (st.pc + BitVec.ofNat 16 k)) := by
    have h := fetchFrom_unmapped (fetched := []) (ahead := st.codeBytes k st.pc) (st := st.atFetch)
      (n := maxInstrBytes) hshort
    rw [hlength, State.atFetch_pc, State.atFetch_codeBytes, State.atFetch_mapped] at h
    exact h rfl (fun j hj => (st.atFetch_backed _).trans (hbacked j hj)) hend hk
  rw [step_of_quiet hquiet, executeOne, hfetch]
  rfl

/-- Settles O11: each access begins with the read or write that meets the address. -/
theorem unmappedAddressesFaultEveryAccess : Obligations.UnmappedAddressesFaultEveryAccess := by
  intro st
  refine ⟨fun addr h => ⟨readByte_unmapped h, fun v => writeByte_unmapped v h⟩,
    fun addr k h => ⟨readWord_unmapped h, fun v => writeWord_unmapped v h, jumpToVector_unmapped h⟩,
    fun k hquiet hbacked hshort hend => step_fetch_unmapped hquiet hbacked hshort hend,
    fun ix k hind h i hi => ?_, fun o u hreaches => ⟨fun h i hi => ?_, fun k h i hi => ?_⟩⟩
  · obtain ⟨op, hexec⟩ := exec_indexedInstrs hi
    rw [hexec, eaIndexed_unmapped hind h]
    rfl
  · obtain ⟨op, hexec, hstop⟩ := exec_byteInstrs hi
    have hreach := reachOperand_eq_next.mpr hreaches
    rw [hexec, hreach, andThen_next]
    exact hstop u (((reachOperand_frame hreach).sameParams.mapped _).trans h)
  · obtain ⟨op, hexec, hstop⟩ := exec_wordInstrs hi
    have hreach := reachOperand_eq_next.mpr hreaches
    rw [hexec, hreach, andThen_next]
    exact hstop u k ((reachOperand_frame hreach).sameParams.unmappedGoingUp h)

end Sys2Proof.Machine
end

section
/-! PROOFS. The decoder undoes the encoder: every well-formed instruction is read back from its own bytes, whatever
follows them (R82, R86 to R99). -/

namespace Sys2Proof

open Sys2Proof.Machine

/-! ## The indexed operand (R86 to R92) -/

/-- The fields of a postbyte with bit 7 set (R86, R89). -/
theorem postbyte_fields (rr : BitVec 2) (low : BitVec 5) :
    (postbyte rr low).getLsbD 7 = true ∧ (postbyte rr low).extractLsb' 5 2 = rr ∧
      (postbyte rr low).extractLsb' 0 5 = low := by
  revert rr low
  decide

/-- The fields of the postbyte of a 5-bit offset (R87). -/
theorem off5_fields (rr : BitVec 2) (n : BitVec 5) :
    (0#1 ++ rr ++ n).getLsbD 7 = false ∧ (0#1 ++ rr ++ n).extractLsb' 5 2 = rr ∧
      (0#1 ++ rr ++ n).extractLsb' 0 5 = n := by
  revert rr n
  decide

theorem PtrReg.ofCode_code (r : PtrReg) : PtrReg.ofCode r.code = r := by cases r <;> rfl

/-- A postbyte with bit 7 set is read by its row of Table 2 (R89). -/
theorem decodeIndexed_postbyte (rr : BitVec 2) (low : BitVec 5) (rest : List Byte) :
    decodeIndexed (postbyte rr low :: rest) =
      readShape (postbyte rr low) (postbyteShape (PtrReg.ofCode rr) low) rest := by
  obtain ⟨hbit, hreg, hform⟩ := postbyte_fields rr low
  rw [decodeIndexed_cons, readAfterPostbyte]
  simp only [hbit, hreg, hform, if_true]

theorem decodeIndexed_off5 (r : PtrReg) (n : BitVec 5) (rest : List Byte) :
    decodeIndexed ((0#1 ++ r.code ++ n) :: rest) = .ok (.off5 r n, rest) := by
  obtain ⟨hbit, hreg, hform⟩ := off5_fields r.code n
  rw [decodeIndexed_cons, readAfterPostbyte]
  simp only [hbit, hreg, hform, PtrReg.ofCode_code, Bool.false_eq_true, if_false]

/-- A 16-bit field is read back from its two bytes (R54). -/
theorem readShape_word (pb : Byte) (f : Word → Indexed) (w : Word) (rest : List Byte) :
    readShape pb (.word f) (wordBytes w ++ rest) = .ok (f w, rest) := by
  simp [wordBytes, readShape, joinBytes_highByte_lowByte]

theorem decodeIndexed_encodeIndexed (ix : Indexed) (rest : List Byte) :
    decodeIndexed (encodeIndexed ix ++ rest) = .ok (ix, rest) := by
  cases ix with
  | off5 r n => exact decodeIndexed_off5 r n rest
  | pcr16 n | pcr16Ind n | extInd n => exact (decodeIndexed_postbyte _ _ _).trans (readShape_word _ _ n rest)
  | off16 r n | off16Ind r n =>
    refine (decodeIndexed_postbyte _ _ _).trans ?_
    rw [PtrReg.ofCode_code]
    exact readShape_word _ _ n rest
  | pcr8 n | pcr8Ind n => exact decodeIndexed_postbyte _ _ _
  | _ r =>
    refine (decodeIndexed_postbyte _ _ _).trans ?_
    rw [PtrReg.ofCode_code]
    rfl

/-! ## The register pair (R95) -/

theorem Reg.ofCode_code (r : Reg) : Reg.ofCode r.code = some r := by cases r <;> rfl

/-- The halves of a register postbyte are its two codes (R95). -/
theorem regPostbyte_halves (r1 r2 : Reg) :
    (regPostbyte r1 r2).extractLsb' 4 4 = r1.code ∧ (regPostbyte r1 r2).extractLsb' 0 4 = r2.code :=
  ⟨BitVec.extractLsb'_append_eq_left, BitVec.extractLsb'_append_eq_right⟩

theorem decodeRegPair_regPostbyte {r1 r2 : Reg} (h : Reg.sameWidth r1 r2 = true) :
    decodeRegPair (regPostbyte r1 r2) = some (r1, r2) := by
  obtain ⟨hfirst, hsecond⟩ := regPostbyte_halves r1 r2
  simp [decodeRegPair, hfirst, hsecond, Reg.ofCode_code, h]

/-! ## The instructions (R80, R99) -/

theorem decodeOperand_idx_encodeIndexed (f : Indexed → Instr) (ix : Indexed) (rest : List Byte) :
    decodeOperand (.idx f) (encodeIndexed ix ++ rest) = .ok (f ix, rest) := by
  simp [decodeOperand, decodeIndexed_encodeIndexed]

theorem decodeOperand_pair_regPostbyte (f : Reg → Reg → Instr) {r1 r2 : Reg} (h : Reg.sameWidth r1 r2 = true)
    (rest : List Byte) : decodeOperand (.pair f) (regPostbyte r1 r2 :: rest) = .ok (f r1 r2, rest) := by
  simp [decodeOperand, decodeRegPair_regPostbyte h]

/-- A 16-bit operand is read back; EXT and REL16 read theirs as IMM16 does. -/
theorem decodeOperand_imm16_wordBytes (f : Word → Instr) (w : Word) (rest : List Byte) :
    decodeOperand (.imm16 f) (wordBytes w ++ rest) = .ok (f w, rest) := by
  simp [wordBytes, decodeOperand, joinBytes_highByte_lowByte]

/-- Settles O1: by the instruction's format; the opcode's row is a matter of the opcode map, the operand is
read back by the lemma of its kind. -/
theorem decodeOfEncodeIsTheInstruction : Obligations.DecodeOfEncodeIsTheInstruction := by
  intro i rest hwf
  cases i with
  | aslIdx ix | ldaIdx ix | ldbIdx ix | lddIdx ix | ldxIdx ix | ldyIdx ix | lduIdx ix | stdIdx ix | stxIdx ix
  | stuIdx ix | leax ix => exact decodeOperand_idx_encodeIndexed _ ix rest
  | aslExt w | ldaExt w | ldbExt w | lddExt w | ldxExt w | ldyExt w | lduExt w | stdExt w | stxExt w | stuExt w
  | lddImm w | ldxImm w | ldyImm w | lduImm w | lbeq w | lbgt w => exact decodeOperand_imm16_wordBytes _ w rest
  | exg r1 r2 | tfr r1 r2 => exact decodeOperand_pair_regPostbyte _ hwf rest
  | nop | sync | daa | abx | rti | swi | swi2 | swi3 | asra | clrb | cwai _ | aslDir _ | ldaImm _ | ldaDir _
  | ldbImm _ | ldbDir _ | lddDir _ | ldxDir _ | ldyDir _ | lduDir _ | stdDir _ | stxDir _ | stuDir _ | pshs _
  | pulu _ | beq _ | bgt _ => rfl
  | _ => cases hwf

end Sys2Proof
end

section
/-! PROOFS. What the decoder answers is well-formed and has as many bytes as its encoding (R80, R82, R95): each
row of the opcode map makes instructions whose encoding is the opcode and the operand (R99). -/

namespace Sys2Proof

open Sys2Proof.Machine

/-! ## The indexed operand (R91) -/

/-- The shape makes forms that take as many extra bytes as it reads (R91). -/
def PostbyteShape.MatchesExtraBytes : PostbyteShape → Prop
  | .bare f => f.extraBytes = 0
  | .byte f => ∀ b, (f b).extraBytes = 1
  | .word f => ∀ w, (f w).extraBytes = 2
  | .illegal => True

theorem postbyteShape_matchesExtraBytes (r : PtrReg) (low : BitVec 5) :
    (postbyteShape r low).MatchesExtraBytes := by
  unfold postbyteShape
  split <;> simp [PostbyteShape.MatchesExtraBytes, Indexed.extraBytes]

theorem readShape_length {pb : Byte} {shape : PostbyteShape} (hshape : shape.MatchesExtraBytes)
    {bytes rest : List Byte} {ix : Indexed} (h : readShape pb shape bytes = .ok (ix, rest)) :
    bytes.length = ix.extraBytes + rest.length := by
  match shape, bytes with
  | .bare f, bytes => cases h; simp [show ix.extraBytes = 0 from hshape]
  | .byte f, b :: bytes => cases h; simp [hshape b, Nat.add_comm]
  | .word f, b0 :: b1 :: bytes => cases h; simp [hshape (joinBytes b0 b1)]; omega

theorem decodeIndexed_length {bytes rest : List Byte} {ix : Indexed} (h : decodeIndexed bytes = .ok (ix, rest)) :
    bytes.length = (encodeIndexed ix).length + rest.length := by
  cases bytes with
  | nil => cases h
  | cons pb bytes =>
    have hbytes : bytes.length = ix.extraBytes + rest.length := by
      rw [decodeIndexed_cons, readAfterPostbyte] at h
      split at h
      · exact readShape_length (postbyteShape_matchesExtraBytes _ _) h
      · cases h
        exact (Nat.zero_add _).symm
    rw [List.length_cons, hbytes, Laws.encodeIndexed_length]
    omega

/-! ## The register pair (R95) -/

theorem sameWidth_of_decodeRegPair {pb : Byte} {r1 r2 : Reg} (h : decodeRegPair pb = some (r1, r2)) :
    Reg.sameWidth r1 r2 = true := by
  unfold decodeRegPair at h
  split at h
  · split at h
    · next hwidth => cases h; exact hwidth
    · cases h
  · cases h

/-! ## The opcode map (R99) -/

/-- Every instruction the row makes of a legal operand is well-formed and encoded as the opcode and that
operand. -/
def OpcodeShape.EncodedAfter (opcode : List Byte) : OpcodeShape → Prop
  | .inh i => i.wellFormed = true ∧ encode i = opcode
  | .imm8 f | .dir f | .list f | .rel8 f => ∀ b, (f b).wellFormed = true ∧ encode (f b) = opcode ++ [b]
  | .imm16 f | .ext f | .rel16 f => ∀ w, (f w).wellFormed = true ∧ encode (f w) = opcode ++ wordBytes w
  | .idx f => ∀ ix, (f ix).wellFormed = true ∧ encode (f ix) = opcode ++ encodeIndexed ix
  | .pair f => ∀ r1 r2, Reg.sameWidth r1 r2 = true →
      (f r1 r2).wellFormed = true ∧ encode (f r1 r2) = opcode ++ [regPostbyte r1 r2]

theorem opcodePage1_encodedAfter {b : Byte} {shape : OpcodeShape} (h : opcodePage1 b = some shape) :
    shape.EncodedAfter [b] := by
  unfold opcodePage1 at h
  split at h <;> cases h
  -- EXG and TFR
  case h_5 | h_6 => exact fun _ _ hwidth => ⟨hwidth, rfl⟩
  -- the rows with no operand
  case h_2 | h_3 | h_4 | h_12 | h_13 | h_15 | h_16 | h_17 => exact ⟨rfl, rfl⟩
  all_goals exact fun _ => ⟨rfl, rfl⟩

theorem opcodePage2_encodedAfter {b : Byte} {shape : OpcodeShape} (h : opcodePage2 b = some shape) :
    shape.EncodedAfter [0x10#8, b] := by
  unfold opcodePage2 at h
  split at h <;> cases h
  case h_3 => exact ⟨rfl, rfl⟩
  all_goals exact fun _ => ⟨rfl, rfl⟩

theorem opcodePage3_encodedAfter {b : Byte} {shape : OpcodeShape} (h : opcodePage3 b = some shape) :
    shape.EncodedAfter [0x11#8, b] := by
  unfold opcodePage3 at h
  split at h <;> cases h
  exact ⟨rfl, rfl⟩

/-- The instruction is well-formed, and what was read for it is as long as its encoding. -/
structure DecodedAs (bytes rest : List Byte) (i : Instr) : Prop where
  wellFormed : i.wellFormed = true
  length : bytes.length = (encode i).length + rest.length

theorem decodeOperand_decodedAs {opcode bytes rest : List Byte} {shape : OpcodeShape} {i : Instr}
    (hrow : shape.EncodedAfter opcode) (h : decodeOperand shape bytes = .ok (i, rest)) :
    DecodedAs (opcode ++ bytes) rest i := by
  cases shape with
  | inh i =>
    cases h
    obtain ⟨hwf, henc⟩ := hrow
    exact ⟨hwf, by simp [henc]⟩
  | imm8 f | dir f | list f | rel8 f =>
    match bytes with
    | b :: bytes =>
      cases h
      obtain ⟨hwf, henc⟩ := hrow b
      exact ⟨hwf, by simp [henc]; omega⟩
  | imm16 f | ext f | rel16 f =>
    match bytes with
    | b0 :: b1 :: bytes =>
      cases h
      obtain ⟨hwf, henc⟩ := hrow (joinBytes b0 b1)
      exact ⟨hwf, by simp [henc, wordBytes]; omega⟩
  | idx f =>
    simp only [decodeOperand] at h
    split at h
    · next ix rest' hix =>
      cases h
      obtain ⟨hwf, henc⟩ := hrow ix
      exact ⟨hwf, by simp [henc, decodeIndexed_length hix]; omega⟩
    · cases h
  | pair f =>
    match bytes with
    | pb :: bytes =>
      simp only [decodeOperand] at h
      split at h
      · next r1 r2 hpair =>
        cases h
        obtain ⟨hwf, henc⟩ := hrow r1 r2 (sameWidth_of_decodeRegPair hpair)
        exact ⟨hwf, by simp [henc]; omega⟩
      · cases h

theorem decodeRow_decodedAs {opcode bytes rest : List Byte} {row : Option OpcodeShape} {i : Instr}
    (hrow : ∀ shape, row = some shape → shape.EncodedAfter opcode)
    (h : decodeRow opcode row bytes = .ok (i, rest)) : DecodedAs (opcode ++ bytes) rest i := by
  cases row with
  | none => cases h
  | some shape => exact decodeOperand_decodedAs (hrow shape rfl) h

theorem decode_decodedAs {bytes rest : List Byte} {i : Instr} (h : decode bytes = .ok (i, rest)) :
    DecodedAs bytes rest i := by
  unfold decode at h
  split at h
  · cases h
  · next b0 bytes =>
    split at h
    · next h10 =>
      split at h
      · cases h
      · exact decodeRow_decodedAs (fun _ hrow => h10 ▸ opcodePage2_encodedAfter hrow) h
    · split at h
      · next h11 =>
        split at h
        · cases h
        · exact decodeRow_decodedAs (fun _ hrow => h11 ▸ opcodePage3_encodedAfter hrow) h
      · exact decodeRow_decodedAs (fun _ hrow => opcodePage1_encodedAfter hrow) h

/-- An instruction takes 1 to 5 bytes (R80): without its last byte it is too short, and what is too short has
fewer than five. -/
theorem length_of_reads {used : List Byte} {i : Instr} (h : Reads decode used i) :
    1 ≤ used.length ∧ used.length ≤ 5 := by
  have hne : 1 ≤ used.length := by
    rw [Nat.one_le_iff_ne_zero, ne_eq, List.length_eq_zero_iff]
    rintro rfl
    cases h.complete []
  have hshort := (decode_shortBelow (h.truncated (used.length - 1) (by omega))).1
  rw [List.length_take, maxInstrBytes] at hshort
  omega

/-- Settles O2: the decoder has read its bytes from the front, and the row it found says the rest. -/
theorem decodedInstructionsAreWellFormed : Obligations.DecodedInstructionsAreWellFormed := by
  intro bytes rest i h
  obtain ⟨used, rfl, hreads⟩ := decode_readsFront h
  obtain ⟨hwf, hlength⟩ := decode_decodedAs h
  exact ⟨hwf, used, rfl, by simpa using hlength, length_of_reads hreads⟩

end Sys2Proof
end

section
/-! PROOFS. Which indexed postbytes name a form (R93, R94): bit 7 and bits 4:0 decide it, the register field does
not. -/

namespace Sys2Proof

open Sys2Proof.Statements

/-! ## The bits that decide (R89) -/

/-- Bits 6:5 are masked away; bit 7 and bits 4:0 are not (R93). -/
theorem masked_fields (pb : Byte) :
    (pb &&& 0x9F#8).getLsbD 7 = pb.getLsbD 7 ∧ (pb &&& 0x9F#8).extractLsb' 0 5 = pb.extractLsb' 0 5 := by
  revert pb
  decide

/-! ## Illegal postbytes (R94) -/

/-- The shape has no row in Table 2. -/
def PostbyteShape.isIllegal : PostbyteShape → Bool
  | .illegal => true
  | .bare _ | .byte _ | .word _ => false

/-- Bits 4:0 of the nine patterns of R94. -/
def illegalForms : List (BitVec 5) := illegalPostbytes.map (·.extractLsb' 0 5)

theorem postbyteShape_isIllegal (r : PtrReg) (low : BitVec 5) :
    (postbyteShape r low).isIllegal = true ↔ low ∈ illegalForms := by
  revert low
  cases r <;> decide

theorem readShape_eq_illegalPostbyte {pb : Byte} {shape : PostbyteShape} {bytes : List Byte} :
    readShape pb shape bytes = .error (.illegalPostbyte pb) ↔ shape.isIllegal = true := by
  cases shape with
  | illegal | bare f => simp [readShape, PostbyteShape.isIllegal]
  | byte f => cases bytes <;> simp [readShape, PostbyteShape.isIllegal]
  | word f => match bytes with
    | [] | [_] | _ :: _ :: _ => simp [readShape, PostbyteShape.isIllegal]

theorem masked_mem_illegalPostbytes (pb : Byte) :
    (pb &&& 0x9F#8) ∈ illegalPostbytes ↔ pb.getLsbD 7 = true ∧ pb.extractLsb' 0 5 ∈ illegalForms := by
  revert pb
  decide

theorem decodeIndexed_eq_illegalPostbyte (pb : Byte) (rest : List Byte) :
    decodeIndexed (pb :: rest) = .error (.illegalPostbyte pb) ↔ (pb &&& 0x9F#8) ∈ illegalPostbytes := by
  rw [masked_mem_illegalPostbytes, decodeIndexed_cons, readAfterPostbyte]
  cases hbit : pb.getLsbD 7 with
  | false => simp
  | true => simp [readShape_eq_illegalPostbyte, postbyteShape_isIllegal]

/-- Settles O4: a postbyte is rejected when its form has no row in Table 2. -/
theorem illegalIndexedPostbytesAreTheNinePatterns : Obligations.IllegalIndexedPostbytesAreTheNinePatterns :=
  ⟨decodeIndexed_eq_illegalPostbyte, by decide⟩

/-! ## Don't-care bits (R93) -/

/-- A postbyte enters the reading of a legal form by its shape only. -/
theorem readShape_congr {shape : PostbyteShape} (h : shape.isIllegal = false) (pb pb' : Byte) :
    readShape pb shape = readShape pb' shape := by
  funext bytes
  cases shape with
  | illegal => cases h
  | bare f => rfl
  | byte f => cases bytes <;> rfl
  | word f => match bytes with
    | [] | [_] | _ :: _ :: _ => rfl

/-- An offset from PC and extended indirect name no register: one shape whatever the register field (R93). -/
theorem postbyteShape_of_masked {m : Byte} (h : m ∈ [0x8C#8, 0x9C#8, 0x8D#8, 0x9D#8, 0x9F#8]) :
    m.getLsbD 7 = true ∧ ∃ shape : PostbyteShape, shape.isIllegal = false ∧
      ∀ r, postbyteShape r (m.extractLsb' 0 5) = shape := by
  simp only [List.mem_cons, List.not_mem_nil, or_false] at h
  obtain rfl | rfl | rfl | rfl | rfl := h <;> exact ⟨rfl, _, rfl, fun _ => rfl⟩

/-- Settles O5: both postbytes have the shape of their common bits, which is legal and names no register. -/
theorem dontCarePostbyteBitsDoNotChangeTheForm : Obligations.DontCarePostbyteBitsDoNotChangeTheForm := by
  intro pb pb' rest hpb hsame
  obtain ⟨hbit, shape, hlegal, hshape⟩ := postbyteShape_of_masked hpb
  have reads (q : Byte) (hq : q &&& 0x9F#8 = pb &&& 0x9F#8) :
      decodeIndexed (q :: rest) = readShape q shape rest := by
    obtain ⟨hbit7, hform⟩ := masked_fields q
    rw [hq] at hbit7 hform
    rw [decodeIndexed_cons, readAfterPostbyte, ← hbit7, ← hform, hbit, if_pos rfl, hshape]
  rw [reads pb rfl, reads pb' hsame.symm, readShape_congr hlegal pb pb']

end Sys2Proof
end

section
/-! PROOFS. Bytes that the decoder refuses are refused by the step (R95, R103): the fetch reads on while they are
too few, and stops at the one that makes them wrong. -/

namespace Sys2Proof

open Sys2Proof.Machine Sys2Proof.Statements

/-! ## What the decoder refuses -/

/-- The refusal of a decoding error, if it is one the model answers with a refusal (log 15). -/
def DecodeError.refusal? : DecodeError → Option Refusal
  | .unknownOpcode bytes => some (.unknownOpcode bytes)
  | .illegalRegisterCode pb => some (.illegalRegisterCode pb)
  | .illegalPostbyte _ | .truncated => none

/-! The rows of the opcode map are those of R99. -/

theorem opcodePage1_eq_none {b : Byte} (h : b ∉ opcodesAlone) : opcodePage1 b = none := by
  unfold opcodePage1
  split
  case h_49 => rfl
  all_goals exact absurd (by decide) h

theorem opcodePage2_eq_none {b : Byte} (h : b ∉ opcodesAfter10) : opcodePage2 b = none := by
  unfold opcodePage2
  split
  case h_8 => rfl
  all_goals exact absurd (by decide) h

theorem opcodePage3_eq_none {b : Byte} (h : b ∉ opcodesAfter11) : opcodePage3 b = none := by
  unfold opcodePage3
  split
  case h_2 => rfl
  exact absurd (by decide) h

/-- A byte that is neither $10 nor $11 and has no row (R103). -/
theorem decode_unknown {b : Byte} (h : b ∉ 0x10#8 :: 0x11#8 :: opcodesAlone) (rest : List Byte) :
    decode (b :: rest) = .error (.unknownOpcode [b]) := by
  simp only [List.mem_cons, not_or] at h
  obtain ⟨h10, h11, hrow⟩ := h
  simp [decode, h10, h11, opcodePage1_eq_none hrow, decodeRow]

theorem decode_unknown_after10 {b : Byte} (h : b ∉ opcodesAfter10) (rest : List Byte) :
    decode (0x10#8 :: b :: rest) = .error (.unknownOpcode [0x10#8, b]) := by
  simp [decode, opcodePage2_eq_none h, decodeRow]

theorem decode_unknown_after11 {b : Byte} (h : b ∉ opcodesAfter11) (rest : List Byte) :
    decode (0x11#8 :: b :: rest) = .error (.unknownOpcode [0x11#8, b]) := by
  simp [decode, opcodePage3_eq_none h, decodeRow]

theorem Reg.ofCode_unused {c : BitVec 4} (h : c ∈ unusedRegisterCodes) : Reg.ofCode c = none := by
  revert c
  decide

/-- Bit 3 of a register's code says that it is 8 bits wide (R95). -/
theorem Reg.isWide_of_ofCode {c : BitVec 4} {r : Reg} (h : Reg.ofCode c = some r) : r.isWide = !c.getLsbD 3 := by
  revert c r
  decide

theorem regPostbyte_width_bits (pb : Byte) :
    (pb.extractLsb' 4 4).getLsbD 3 = pb.getLsbD 7 ∧ (pb.extractLsb' 0 4).getLsbD 3 = pb.getLsbD 3 := by
  simp

/-- A postbyte with a half that names no register, or with halves of two widths, names no pair (R95). -/
theorem decodeRegPair_eq_none {pb : Byte}
    (h : pb.extractLsb' 4 4 ∈ unusedRegisterCodes ∨ pb.extractLsb' 0 4 ∈ unusedRegisterCodes ∨
      pb.getLsbD 7 ≠ pb.getLsbD 3) : decodeRegPair pb = none := by
  unfold decodeRegPair
  split
  · next r1 r2 h1 h2 =>
    obtain hfirst | hsecond | hwidth := h
    · simp [Reg.ofCode_unused hfirst] at h1
    · simp [Reg.ofCode_unused hsecond] at h2
    · obtain ⟨hbit7, hbit3⟩ := regPostbyte_width_bits pb
      rw [if_neg]
      simpa [Reg.sameWidth, Reg.isWide_of_ofCode h1, Reg.isWide_of_ofCode h2, hbit7, hbit3] using hwidth
  · rfl

/-- TFR and EXG refuse a postbyte that names no pair (R95, R256, R257). -/
theorem decode_illegalPair {op pb : Byte} (hop : op = 0x1F#8 ∨ op = 0x1E#8) (h : decodeRegPair pb = none)
    (rest : List Byte) : decode (op :: pb :: rest) = .error (.illegalRegisterCode pb) := by
  obtain rfl | rfl := hop <;> simp [decode, opcodePage1, decodeRow, decodeOperand, h]

end Sys2Proof

namespace Sys2Proof.Machine

open Sys2Proof.Statements

/-! ## The fetch -/

/-- The fetch with `fetched` read so far and `ahead` lying at PC, too short together for an instruction, and
after them the byte that makes them wrong. -/
theorem fetchFrom_refused {fetched ahead : List Byte} {b : Byte} {e : DecodeError} {r : Refusal}
    (hshort : decode (fetched ++ ahead) = .error .truncated) (hwrong : decode (fetched ++ ahead ++ [b]) = .error e)
    (hrefusal : e.refusal? = some r) {st : State}
    (hcode : st.codeBytes (ahead.length + 1) st.pc = ahead ++ [b]) (hbacked : BackedFrom st st.pc (ahead.length + 1))
    {n : Nat} (hn : ahead.length < n) : fetchFrom n fetched st = .refused r := by
  induction ahead generalizing fetched st n with
  | nil =>
    obtain ⟨n, rfl⟩ : ∃ k, n = k + 1 := ⟨n - 1, by simp at hn; omega⟩
    have hb : st.peek st.pc = b := List.head_eq_of_cons_eq hcode
    rw [List.append_nil] at hwrong
    simp only [fetchFrom, fetchByte_backed (backedFrom_succ hbacked).1, andThen_next, hb, hwrong]
    cases e <;> cases hrefusal <;> rfl
  | cons a ahead ih =>
    obtain ⟨n, rfl⟩ : ∃ k, n = k + 1 := ⟨n - 1, by simp at hn; omega⟩
    obtain ⟨hpc, hlater⟩ := backedFrom_succ hbacked
    obtain ⟨ha, hrest⟩ := List.cons.inj hcode
    have hsplit : fetched ++ a :: ahead = (fetched ++ [a]) ++ ahead := by simp
    rw [hsplit] at hshort hwrong
    have hfront : decode (fetched ++ [a]) = .error .truncated := by
      have h := (decode_shortBelow hshort).2 (fetched ++ [a]).length
      rwa [List.take_left] at h
    simp only [fetchFrom, fetchByte_backed hpc, andThen_next, ha, hfront]
    exact ih (st := { st with pc := st.pc + 1#16 }) hshort hwrong ((st.codeBytes_setPc _ _ _).trans hrest) hlater
      (by simpa using hn)

/-- A quiet step refuses bytes in RAM or ROM that the decoder refuses (R57, R103). -/
theorem step_refused {st : State} {ahead : List Byte} {b : Byte} {e : DecodeError} {r : Refusal}
    (hquiet : st.quiet = true) (hcode : st.codeBytes (ahead.length + 1) st.pc = ahead ++ [b])
    (hbacked : BackedFrom st st.pc (ahead.length + 1)) (hshort : decode ahead = .error .truncated)
    (hwrong : decode (ahead ++ [b]) = .error e) (hrefusal : e.refusal? = some r) : step st = .refused r := by
  have hlength : ahead.length < maxInstrBytes := (decode_shortBelow hshort).1
  have hfetch : fetchInstr st.atFetch = .refused r :=
    fetchFrom_refused (fetched := []) hshort hwrong hrefusal
      (by rw [State.atFetch_codeBytes, State.atFetch_pc, hcode])
      (fun k hk => by rw [State.atFetch_backed, State.atFetch_pc]; exact hbacked k hk) hlength
  rw [step_of_quiet hquiet, executeOne, hfetch, andThen_refused]

theorem backedFrom_one {st : State} {addr : Word} (h : st.backed addr = true) : BackedFrom st addr 1 := by
  intro k hk
  obtain rfl : k = 0 := by omega
  simpa using h

theorem backedFrom_two {st : State} {addr : Word} (h0 : st.backed addr = true)
    (h1 : st.backed (addr + 1#16) = true) : BackedFrom st addr 2 := by
  intro k hk
  obtain rfl | rfl : k = 0 ∨ k = 1 := by omega
  · simpa using h0
  · exact h1

/-- A quiet step at a first byte that needs another one, and is refused with it. -/
theorem step_refused_two {st : State} {b0 b1 : Byte} {e : DecodeError} {r : Refusal} (hquiet : st.quiet = true)
    (hbacked : BackedFrom st st.pc 2) (h0 : st.peek st.pc = b0) (h1 : st.peek (st.pc + 1#16) = b1)
    (hshort : decode [b0] = .error .truncated) (hwrong : decode [b0, b1] = .error e)
    (hrefusal : e.refusal? = some r) : step st = .refused r :=
  step_refused (ahead := [b0]) hquiet (by simp [State.codeBytes, h0, h1]) hbacked hshort hwrong hrefusal

theorem step_refuses_after10 {st : State} (hquiet : st.quiet = true) (hbacked : BackedFrom st st.pc 2)
    (h0 : st.peek st.pc = 0x10#8) (h1 : st.peek (st.pc + 1#16) ∉ opcodesAfter10) :
    step st = .refused (.unknownOpcode [0x10#8, st.peek (st.pc + 1#16)]) :=
  step_refused_two hquiet hbacked h0 rfl rfl (decode_unknown_after10 h1 []) rfl

theorem step_refuses_after11 {st : State} (hquiet : st.quiet = true) (hbacked : BackedFrom st st.pc 2)
    (h0 : st.peek st.pc = 0x11#8) (h1 : st.peek (st.pc + 1#16) ∉ opcodesAfter11) :
    step st = .refused (.unknownOpcode [0x11#8, st.peek (st.pc + 1#16)]) :=
  step_refused_two hquiet hbacked h0 rfl rfl (decode_unknown_after11 h1 []) rfl

/-- Settles O7: the byte that leaves the opcode without a row ends the fetch, and neither $10 nor $11 has a row in
the pages that $10 and $11 select. -/
theorem stepRefusesUnknownOpcodes : Obligations.StepRefusesUnknownOpcodes := by
  intro st hquiet hpc
  refine ⟨fun hunknown => ?_, fun hnext => ?_⟩
  · exact step_refused (ahead := []) hquiet rfl (backedFrom_one hpc) rfl (decode_unknown hunknown []) rfl
  have hbacked : BackedFrom st st.pc 2 := backedFrom_two hpc hnext
  refine ⟨step_refuses_after10 hquiet hbacked, step_refuses_after11 hquiet hbacked, fun hfirst hsecond => ?_⟩
  have hno10 : st.peek (st.pc + 1#16) ∉ opcodesAfter10 := by
    obtain h | h := hsecond <;> rw [h] <;> decide
  have hno11 : st.peek (st.pc + 1#16) ∉ opcodesAfter11 := by
    obtain h | h := hsecond <;> rw [h] <;> decide
  obtain h | h := hfirst
  · rw [h]
    exact step_refuses_after10 hquiet hbacked h hno10
  · rw [h]
    exact step_refuses_after11 hquiet hbacked h hno11

/-! ## Register pairs of two widths -/

theorem whenSameWidth_refused {r1 r2 : Reg} (h : r1.isWide ≠ r2.isWide) (op : State → State) (st : State) :
    whenSameWidth r1 r2 op st = .refused (.illegalRegisterCode (r1.code ++ r2.code)) := by
  rw [whenSameWidth, if_neg (by simpa [Reg.sameWidth] using h), regPostbyte]

/-- Settles O9: the decoder gives such a postbyte no pair, and the meanings check the widths first. -/
theorem illegalRegisterPairsAreRefused : Obligations.IllegalRegisterPairsAreRefused := by
  refine ⟨fun st hquiet hbacked hop pb hpb hillegal => ?_, fun r1 r2 st hwidth => ?_⟩
  · have hshort : decode [st.peek st.pc] = .error .truncated := by
      obtain h | h := hop <;> rw [h] <;> rfl
    exact step_refused_two hquiet hbacked rfl hpb.symm hshort
      (decode_illegalPair hop (decodeRegPair_eq_none hillegal) []) rfl
  · exact ⟨whenSameWidth_refused hwidth _ st, whenSameWidth_refused hwidth _ st⟩

end Sys2Proof.Machine
end

section
/-! PROOFS. The form or the offset that the assembler's functions choose leads back to what was written (R105,
R129, R131, R174; log 25). -/

namespace Sys2Proof.Machine

open Sys2Proof.Statements

variable {st : State}

/-! ## The address of a form -/

theorem stepped_of_not_auto {ix : Indexed} (h : isAuto ix = false) (st : State) : stepped st ix = st := by
  cases ix with
  | inc1 r | inc2 r | inc2Ind r | dec1 r | dec2 r | dec2Ind r => cases h
  | _ => rfl

/-- The form computes the address, before any indirection, and steps no register. -/
structure Addresses (st : State) (ix : Indexed) (indirect : Bool) (addr : Word) : Prop where
  indirect : isIndirect ix = indirect
  auto : isAuto ix = false
  address : plainAddress st ix = addr

theorem Addresses.exec_direct {ix : Indexed} {addr : Word} (h : Addresses st ix false addr) :
    exec (postbyteRow ix) st = .next { st with temp := addr } := by
  obtain ⟨hind, hauto, haddr⟩ := h
  rw [exec_postbyteRow, eaIndexed_eq, hind, if_neg Bool.false_ne_true, heldPlain, stepped_of_not_auto hauto, haddr]
  rfl

theorem Addresses.exec_indirect {ix : Indexed} {addr : Word} (h : Addresses st ix true addr) :
    exec (postbyteRow ix) st = andThen (readWord addr st) fun p => .next { p.2 with temp := p.1 } := by
  obtain ⟨hind, hauto, haddr⟩ := h
  simp only [exec_postbyteRow, eaIndexed_indirect hind, stepped_of_not_auto hauto, haddr]

/-! ## Constant offsets (R105) -/

theorem constantOffset_addresses (st : State) (r : PtrReg) (n : Word) :
    Addresses st (Assembler.constantOffset r n) false (st.ptr r + n) := by
  unfold Assembler.constantOffset
  split
  · next hzero => exact ⟨rfl, rfl, by simp [hzero, plainAddress]⟩
  split
  · next hfits => exact ⟨rfl, rfl, congrArg (st.ptr r + ·) hfits⟩
  split
  · next hfits => exact ⟨rfl, rfl, congrArg (st.ptr r + ·) hfits⟩
  · exact ⟨rfl, rfl, rfl⟩

theorem constantOffsetIndirect_addresses (st : State) (r : PtrReg) (n : Word) :
    Addresses st (Assembler.constantOffsetIndirect r n) true (st.ptr r + n) := by
  unfold Assembler.constantOffsetIndirect
  split
  · next hfits => exact ⟨rfl, rfl, congrArg (st.ptr r + ·) hfits⟩
  · exact ⟨rfl, rfl, rfl⟩

/-! ## Offsets from PC (R174) -/

/-- The distance from the next instruction, added to PC (R173). -/
theorem pc_add_distance {next addr off : Word} (hpc : st.pc = next) (hoff : off = addr - next) :
    st.pc + off = addr := by
  rw [hpc, hoff, BitVec.add_comm, BitVec.sub_add_cancel]

theorem pcRelative_addresses {start len addr : Word}
    (hpc : st.pc = start + len + BitVec.ofNat 16 (Assembler.pcRelative start len addr).extraBytes) :
    Addresses st (Assembler.pcRelative start len addr) false addr := by
  unfold Assembler.pcRelative at hpc ⊢
  split at hpc
  · next hfits => rw [if_pos hfits]; exact ⟨rfl, rfl, pc_add_distance hpc hfits⟩
  · next hfar => rw [if_neg hfar]; exact ⟨rfl, rfl, pc_add_distance hpc rfl⟩

theorem pcRelativeIndirect_addresses {start len addr : Word}
    (hpc : st.pc = start + len + BitVec.ofNat 16 (Assembler.pcRelativeIndirect start len addr).extraBytes) :
    Addresses st (Assembler.pcRelativeIndirect start len addr) true addr := by
  unfold Assembler.pcRelativeIndirect at hpc ⊢
  split at hpc
  · next hfits => rw [if_pos hfits]; exact ⟨rfl, rfl, pc_add_distance hpc hfits⟩
  · next hfar => rw [if_neg hfar]; exact ⟨rfl, rfl, pc_add_distance hpc rfl⟩

/-! ## Branches (R129, R131) -/

theorem branchIf_taken {cond : Byte → Bool} {off target : Word} (hcond : cond st.cc = true)
    (htarget : st.pc + off = target) : branchIf cond off st = .next { st with pc := target } := by
  rw [branchIf, if_pos hcond, htarget]

theorem condGt_of_flags {cc : Byte} (hz : getFlag cc .z = false) (hnv : getFlag cc .n = getFlag cc .v) :
    condGt cc = true := by
  simp [condGt, hz, hnv]

theorem shortBranch_eq_some {start target : Word} {off : Byte}
    (h : Assembler.shortBranch start target = some off) : sext8 off = target - (start + 2#16) := by
  unfold Assembler.shortBranch at h
  split at h
  · next hfits => cases h; exact hfits
  · cases h

/-- Settles O30: the form computes the address written, and a branch's offset is the distance to its target. -/
theorem assembledFormsReachTheirAddress : Obligations.AssembledFormsReachTheirAddress := by
  intro st
  refine ⟨fun r n => (constantOffset_addresses st r n).exec_direct,
    fun r n => (constantOffsetIndirect_addresses st r n).exec_indirect,
    fun start len addr hpc => (pcRelative_addresses hpc).exec_direct,
    fun start len addr hpc => (pcRelativeIndirect_addresses hpc).exec_indirect,
    fun start target off hpc hshort => ?_, fun start target hpc => ?_⟩
  · have htarget : st.pc + sext8 off = target := pc_add_distance hpc (shortBranch_eq_some hshort)
    exact ⟨fun hz => branchIf_taken hz htarget, fun hz hnv => branchIf_taken (condGt_of_flags hz hnv) htarget⟩
  · have htarget : st.pc + Assembler.longBranch start target = target := pc_add_distance hpc rfl
    exact ⟨fun hz => branchIf_taken hz htarget, fun hz hnv => branchIf_taken (condGt_of_flags hz hnv) htarget⟩

end Sys2Proof.Machine
end

section
/-! PROOFS. The words of the spec are encodings of their instructions (95_test_vectors.md section 1). -/

namespace Sys2Proof

/-- A word that is an instruction's encoding decodes to it. -/
theorem decode_encode (i : Instr) (h : i.wellFormed = true) : decode (encode i) = .ok (i, []) := by
  simpa using decodeOfEncodeIsTheInstruction i [] h

/-- Settles O3: each word is the encoding of its instruction, so the round trip gives it back. -/
theorem specWordsDecodeToTheirInstructions : Obligations.SpecWordsDecodeToTheirInstructions :=
  ⟨decode_encode (.ldyIdx (.off16 .x 300#16)) rfl, decode_encode (.ldaIdx (.off8Ind .x 0x10#8)) rfl,
    decode_encode (.ldxIdx (.off5 .s 0b11110#5)) rfl, decode_encode (.ldxIdx (.extInd 0xFFFE#16)) rfl,
    decode_encode (.tfr .x .y) rfl, decode_encode (.pshs 0b00110110#8) rfl, decode_encode (.lbeq 0x0100#16) rfl,
    decode_encode .swi3 rfl⟩

end Sys2Proof
end

section
/-! PROOFS. Bytes whose indexed postbyte names no form stop the fetch with the fault that names the postbyte (R94,
R184). -/

namespace Sys2Proof.Machine

open Sys2Proof.Statements

/-! ## The fetch -/

/-- While the bytes at PC are too few for an instruction, the fetch takes them and reads on (R57, R82). -/
theorem fetchFrom_readsOn {fetched ahead : List Byte} {st : State} (n : Nat)
    (hshort : decode (fetched ++ ahead) = .error .truncated) (hcode : st.codeBytes ahead.length st.pc = ahead)
    (hbacked : BackedFrom st st.pc ahead.length) :
    fetchFrom (ahead.length + n) fetched st =
      fetchFrom n (fetched ++ ahead) { st with pc := st.pc + BitVec.ofNat 16 ahead.length } := by
  induction ahead generalizing fetched st with
  | nil => simp
  | cons b ahead ih =>
    obtain ⟨hpc, hlater⟩ := backedFrom_succ hbacked
    obtain ⟨hb, hrest⟩ := List.cons.inj hcode
    have hsplit : fetched ++ b :: ahead = (fetched ++ [b]) ++ ahead := by simp
    rw [hsplit] at hshort ⊢
    have hfront : decode (fetched ++ [b]) = .error .truncated := by
      have h := (decode_shortBelow hshort).2 (fetched ++ [b]).length
      rwa [List.take_left] at h
    rw [List.length_cons, Nat.add_right_comm, add_ofNat_succ]
    simp only [fetchFrom, fetchByte_backed hpc, andThen_next, hb, hfront]
    exact ih hshort ((st.codeBytes_setPc _ _ _).trans hrest) hlater

/-- The byte at PC makes an illegal postbyte of what was fetched before it. -/
theorem fetchFrom_illegalPostbyte {fetched : List Byte} {st : State} {pb : Byte} (n : Nat)
    (hbacked : st.backed st.pc = true)
    (hillegal : decode (fetched ++ [st.peek st.pc]) = .error (.illegalPostbyte pb)) :
    fetchFrom (n + 1) fetched st = .fault (.illegalPostbyte pb) := by
  simp only [fetchFrom, fetchByte_backed hbacked, andThen_next, hillegal]

/-- The opcode's bytes, $10 before them on page 2, call for an indexed operand (R99). -/
def CallsForIndexed (opcode : List Byte) : Prop :=
  ∃ f : Indexed → Instr, ∀ rest, decode (opcode ++ rest) = decodeOperand (.idx f) rest

theorem CallsForIndexed.truncated {opcode : List Byte} (h : CallsForIndexed opcode) :
    decode opcode = .error .truncated := by
  obtain ⟨f, hdecode⟩ := h
  have hnone := hdecode []
  rwa [List.append_nil] at hnone

theorem CallsForIndexed.illegalPostbyte {opcode : List Byte} (h : CallsForIndexed opcode) {pb : Byte}
    (hpb : (pb &&& 0x9F#8) ∈ illegalPostbytes) : decode (opcode ++ [pb]) = .error (.illegalPostbyte pb) := by
  obtain ⟨f, hdecode⟩ := h
  rw [hdecode, decodeOperand, (decodeIndexed_eq_illegalPostbyte pb []).mpr hpb]

/-- A quiet step at an opcode that calls for an indexed operand, with an illegal postbyte after it. -/
theorem step_illegalPostbyte {st : State} {opcode : List Byte} {pb : Byte} (hquiet : st.quiet = true)
    (hindexed : CallsForIndexed opcode) (hbacked : BackedFrom st st.pc (opcode.length + 1))
    (hopcode : st.codeBytes opcode.length st.pc = opcode)
    (hpeek : st.peek (st.pc + BitVec.ofNat 16 opcode.length) = pb)
    (hpb : (pb &&& 0x9F#8) ∈ illegalPostbytes) : step st = .fault (.illegalPostbyte pb) := by
  have hshort := hindexed.truncated
  have hcode : st.atFetch.codeBytes opcode.length st.atFetch.pc = opcode := by
    rwa [State.atFetch_codeBytes, State.atFetch_pc]
  have hbacked' (k : Nat) (hk : k < opcode.length + 1) :
      st.atFetch.backed (st.atFetch.pc + BitVec.ofNat 16 k) = true := by
    rw [State.atFetch_backed, State.atFetch_pc]
    exact hbacked k hk
  have hlast : st.atFetch.peek (st.atFetch.pc + BitVec.ofNat 16 opcode.length) = pb := by
    rw [State.atFetch_pc, ← hpeek]
    simp [State.peek, State.atFetch]
  obtain ⟨n, hn⟩ : ∃ n, maxInstrBytes = opcode.length + (n + 1) :=
    Nat.exists_eq_add_of_lt (decode_shortBelow hshort).1
  have hfetch : fetchInstr st.atFetch = .fault (.illegalPostbyte pb) := by
    rw [fetchInstr, hn, fetchFrom_readsOn (fetched := []) (n + 1) hshort hcode
      fun k hk => hbacked' k (Nat.lt_succ_of_lt hk)]
    refine fetchFrom_illegalPostbyte n (hbacked' _ (Nat.lt_succ_self _)) ?_
    exact (congrArg (fun b => decode (opcode ++ [b])) hlast).trans (hindexed.illegalPostbyte hpb)
  rw [step_of_quiet hquiet, executeOne, hfetch, andThen_fault]

/-! ## The indexed opcodes -/

theorem callsForIndexed_of_mem {op : Byte} (h : op ∈ indexedOpcodes) : CallsForIndexed [op] := by
  simp only [indexedOpcodes, List.mem_cons, List.not_mem_nil, or_false] at h
  obtain rfl | rfl | rfl | rfl | rfl | rfl | rfl | rfl | rfl | rfl := h <;> exact ⟨_, fun _ => rfl⟩

/-- LDY's opcode on page 2 (R99, R205). -/
theorem callsForIndexed_ldy : CallsForIndexed [0x10#8, 0xAE#8] := ⟨.ldyIdx, fun _ => rfl⟩

/-- Settles O8: the opcode asks for a postbyte, and the one fetched names no form. -/
theorem stepFaultsOnIllegalPostbytes : Obligations.StepFaultsOnIllegalPostbytes := by
  refine fun st hquiet => ⟨fun hbacked hop hpb => ?_, fun hbacked h0 h1 hpb => ?_⟩
  · exact step_illegalPostbyte hquiet (callsForIndexed_of_mem hop) hbacked rfl rfl hpb
  · have hcode : st.codeBytes 2 st.pc = [0x10#8, 0xAE#8] := by rw [← h0, ← h1]; rfl
    exact step_illegalPostbyte hquiet callsForIndexed_ldy hbacked hcode rfl hpb

end Sys2Proof.Machine
end

section
/-! PROOFS. The address computation by itself, as the postbyte rows do it (R151, R181, R183; log 13). -/

namespace Sys2Proof.Machine

open Sys2Proof.Statements

/-- Settles O28: a postbyte row is its form's address computation, and that ends in `MemOperand.after`. -/
theorem postbyteRowsHoldTheirEffectiveAddress : Obligations.PostbyteRowsHoldTheirEffectiveAddress :=
  fun ix st hpointer => (exec_postbyteRow ix st).trans (eaIndexed_ready hpointer)

/-- Reading the pointer of an indirect form moves no pointer register (R176). -/
theorem eaIndirect_ptr {st t : State} (h : eaIndirect st = .next t) (r : PtrReg) : t.ptr r = st.ptr r := by
  obtain ⟨⟨ptr, u⟩, hread, hnext⟩ := andThen_eq_next.mp h
  cases hnext
  rw [State.hold_ptr, readWord_frame hread]
  cases r <;> rfl

/-- The pointer registers after an answered address computation are those of the stepped state (R183). -/
theorem eaIndexed_ptr {ix : Indexed} {st t : State} (h : eaIndexed ix st = .next t) (r : PtrReg) :
    t.ptr r = (stepped st ix).ptr r := by
  have hheld : (heldPlain st ix).ptr r = (stepped st ix).ptr r := State.hold_ptr _ r _
  rw [eaIndexed_eq] at h
  split at h
  · exact (eaIndirect_ptr h r).trans hheld
  · cases h
    exact hheld

/-- Settles O29: the frame of the address computation, and the pointer registers as the form steps them. -/
theorem onlyAutoFormsWriteAPointerRegister : Obligations.OnlyAutoFormsWriteAPointerRegister := by
  intro ix st t h
  rw [exec_postbyteRow] at h
  have hptr := eaIndexed_ptr h
  refine ⟨eaIndexed_frame h, fun hplain => ?_, fun _ => hptr⟩
  rw [stepped_of_not_auto hplain] at hptr
  exact ⟨hptr .x, hptr .y, hptr .u, hptr .s⟩

end Sys2Proof.Machine
end

section
/-! PROOFS. Loads, 16-bit stores and LEAX where the operand is reached without side effect: they act on
`MemOperand.after` (R181, R182, R204 to R211). -/

namespace Sys2Proof.Machine

open Sys2Proof.Statements

/-! ## Loads -/

/-- An 8-bit load takes the byte that lies at the effective address, its register written last (R182). -/
theorem exec_loadByte_ready {put : State → Byte → State} {i : Instr} {o : MemOperand} {st : State}
    (hexec : exec i st = andThen (reachOperand st o) (loadByteAt put)) (hready : o.Ready st)
    (hdata : st.backed (o.ea st) = true) : exec i st = .next (put (o.after st) (st.peek (o.ea st))) := by
  have hreach := reachOperand_ready hready
  have hread : readByte (o.after st).temp (o.after st) = .next (st.peek (o.ea st), o.after st) := by
    have hbacked : (o.after st).backed (o.after st).temp = true := by
      rwa [MemOperand.after_backed, MemOperand.after_temp]
    rw [readByte_backed hbacked, MemOperand.after_temp, (reachOperand_frame hreach).peek]
  rw [hexec, hreach, andThen_next, loadByteAt_answered put hread]

/-- A 16-bit load takes the word that lies at the effective address, its register written last (R182). -/
theorem exec_loadWord_ready {put : State → Word → State} {i : Instr} {o : MemOperand} {st : State}
    (hexec : exec i st = andThen (reachOperand st o) (loadWordAt put)) (hready : o.Ready st)
    (hdata : BackedFrom st (o.ea st) 2) : exec i st = .next (put (o.after st) (st.peekWord (o.ea st))) := by
  have hread : readWord (o.after st).temp (o.after st) = .next (st.peekWord (o.ea st), o.after st) := by
    have hbacked : BackedFrom (o.after st) (o.after st).temp 2 := fun k hk => by
      rw [MemOperand.after_backed, MemOperand.after_temp]
      exact hdata k hk
    rw [readWord_of_backedFrom hbacked, MemOperand.after_temp, MemOperand.after_peekWord]
  rw [hexec, reachOperand_ready hready, andThen_next, loadWordAt_answered put hread]

/-- The flags of a 16-bit load made after the addressing mode, which changes none (R183, R211). -/
theorem moveFlags_after (st : State) (o : MemOperand) (v : Word) :
    MoveFlags v.msb (v == 0#16) st.cc (moveFlags16 v (o.after st).cc) := by
  rw [MemOperand.after_cc]
  exact moveFlags_moveFlags16 v st.cc

/-- Settles O33: the immediate operand is the word itself, every other mode reads it at its address. -/
theorem pointerLoadsLoadAWord : Obligations.PointerLoadsLoadAWord := by
  intro st
  refine ⟨fun v => ?_, fun o hready hdata => ?_⟩
  · have hflags := moveFlags_moveFlags16 v st.cc
    exact ⟨⟨_, rfl, rfl, hflags⟩, ⟨_, rfl, rfl, hflags⟩, _, rfl, rfl, hflags⟩
  · have hflags := moveFlags_after st o (st.peekWord (o.ea st))
    exact ⟨⟨_, exec_loadWord_ready (exec_ldxOf_reach o st) hready hdata, rfl, hflags⟩,
      ⟨_, exec_loadWord_ready (exec_ldyOf_reach o st) hready hdata, rfl, hflags⟩,
      _, exec_loadWord_ready (exec_lduOf_reach o st) hready hdata, rfl, hflags⟩

/-! ## Stores -/

/-- `MemOperand.after` is the end of a mode that meets no device: each is as it was, and nothing is drawn. -/
theorem after_devices_draws (st : State) (o : MemOperand) :
    (o.after st).devices = st.devices ∧ (o.after st).draws = st.draws := by
  cases o with
  | direct lo | extended addr => exact ⟨rfl, rfl⟩
  | indexed ix => exact ⟨(stepped_registerUpdate ix).devices st, (stepped_registerUpdate ix).draws st⟩

/-- A 16-bit write touches a device only where one lies at one of its two addresses (R61). -/
theorem writeWord_sameDevices {addr v : Word} {st t : State} (h : writeWord addr v st = .next t) :
    SameDevicesUnlessIn st t addr 2 := by
  obtain ⟨-, -, rfl⟩ := writeWord_eq_next.mp h
  intro hnone
  have hhigh : ∀ d, st.kindAt addr ≠ .device d := by simpa using hnone 0 (by decide)
  have hlow : ∀ d, (st.store addr (highByte v)).kindAt (addr + 1#16) ≠ .device d := by
    simpa using hnone 1 (by decide)
  obtain ⟨hdevices, hdraws⟩ := State.store_devices_of_not_device st addr (highByte v) hhigh
  obtain ⟨hdevices', hdraws'⟩ := State.store_devices_of_not_device _ (addr + 1#16) (lowByte v) hlow
  exact ⟨hdevices'.trans hdevices, hdraws'.trans hdraws⟩

/-- A word written to RAM lies there (R53). -/
theorem writeWord_peekWord {addr v : Word} {st t : State} (h : writeWord addr v st = .next t)
    (hwf : st.mem.wf = true) (hram : RamFrom st addr 2) : t.peekWord addr = v := by
  obtain ⟨u, hwrite, hhigh, hlow, -⟩ := wordsLieInMemoryHighByteFirst.2 st addr v hwf hram
  rw [hwrite] at h
  cases h
  rw [State.peekWord, hhigh, hlow]
  exact joinBytes_highByte_lowByte v

/-- All that a 16-bit write can change: memory, the registers of devices and the count of draws. -/
theorem writeWord_frame {addr v : Word} {st t : State} (h : writeWord addr v st = .next t) :
    t = { st with mem := t.mem, devices := t.devices, draws := t.draws } := by
  obtain ⟨-, -, rfl⟩ := writeWord_eq_next.mp h
  rw [State.store_eq, State.store_eq st]

/-- A 16-bit store on an operand reached without side effect, whatever its two bytes lie in (R207 to R209). -/
theorem exec_storeWord_ready (get : State → Word) {i : Instr} {o : MemOperand} {st : State}
    (hexec : exec i st = andThen (reachOperand st o) (storeWordAt get)) (hready : o.Ready st)
    (hmapped : MappedFrom st (o.ea st) 2) :
    ∃ t, exec i st = .next t ∧
      t = { o.after st with mem := t.mem, cc := t.cc, devices := t.devices, draws := t.draws } ∧
      MoveFlags (get (o.after st)).msb (get (o.after st) == 0#16) st.cc t.cc ∧
      SameMemoryOutside st t (o.ea st) 2 ∧ SameDevicesUnlessIn st t (o.ea st) 2 ∧
      (st.mem.wf = true → RamFrom st (o.ea st) 2 → t.peekWord (o.ea st) = get (o.after st)) := by
  have hreach := reachOperand_ready hready
  have hframe := reachOperand_frame hreach
  have hkind := hframe.sameParams.kindAt
  obtain ⟨hdevices, hdraws⟩ := after_devices_draws st o
  rw [← MemOperand.after_temp] at hmapped
  obtain ⟨y, t, hwrite, hstore, ht, hflags, hmem⟩ := exec_store_answered get hexec hreach hmapped
  rw [MemOperand.after_temp] at hwrite hmem
  refine ⟨t, hstore, ?_, hflags, hmem, fun hnone => ?_, fun hwf hram => ?_⟩
  · rw [ht, writeWord_frame hwrite]
  · obtain ⟨hdevices', hdraws'⟩ := writeWord_sameDevices hwrite fun k hk d => by
      rw [hkind]
      exact hnone k hk d
    rw [ht]
    exact ⟨hdevices'.trans hdevices, hdraws'.trans hdraws⟩
  · have hwf' : (o.after st).mem.wf = true := by rwa [hframe]
    have hword := writeWord_peekWord hwrite hwf' fun k hk => (hkind _).trans (hram k hk)
    rw [ht]
    exact hword

/-- Settles O35: each of the three stores its register, read from the state after the addressing mode. -/
theorem stdStxStuStoreAWord : Obligations.StdStxStuStoreAWord := by
  rintro st o hready hmapped i v (⟨rfl, rfl⟩ | ⟨rfl, rfl⟩ | ⟨rfl, rfl⟩)
  · have hd : (o.after st).d = st.a ++ st.b := (reachOperand_frame (reachOperand_ready hready)).d
    rw [← hd]
    exact exec_storeWord_ready State.d (exec_stdOf_reach o st) hready hmapped
  · exact exec_storeWord_ready State.x (exec_stxOf_reach o st) hready hmapped
  · exact exec_storeWord_ready State.u (exec_stuOf_reach o st) hready hmapped

/-- Settles O36: STX with the operand `,X++`, whose address is X before the step. -/
theorem stxAutoIncrementStoresTheSteppedPointer : Obligations.StxAutoIncrementStoresTheSteppedPointer := by
  intro st hwf hram
  have hready : (MemOperand.indexed (.inc2 .x)).Ready st := nofun
  obtain ⟨t, hexec, ht, -, hmem, -, hword⟩ := stdStxStuStoreAWord st (.indexed (.inc2 .x)) hready
    (mappedFrom_of_backedFrom (backedFrom_of_ramFrom hram)) _ _ (.inr (.inl ⟨rfl, rfl⟩))
  exact ⟨t, hexec, by rw [ht]; rfl, hword hwf hram, hmem⟩

/-! ## LEAX -/

/-- Settles O37: the address computation, and then X and Z from the address held. -/
theorem leaxLoadsTheAddress : Obligations.LeaxLoadsTheAddress := by
  intro st ix hpointer
  refine ⟨_, exec_leax_reach (reachOperand_ready (o := .indexed ix) hpointer), rfl, fun g => ?_⟩
  rw [getFlag_leaFlags, MemOperand.after_cc]
  rfl

end Sys2Proof.Machine
end

section
/-! PROOFS. The source's worked example of indexed indirect (R177). -/

namespace Sys2Proof.Machine

open Sys2Proof.Statements

/-- The memory and registers of the example; what the source leaves open is free. -/
def workedExample (a b dp cc : Byte) (y u s : Word) : State :=
  { State.reset with
    a := a, b := b, dp := dp, cc := cc, x := 0xF000#16, y := y, u := u, s := s, pc := 0x0100#16
    mem := [(0x0100, 0xA6#8), (0x0101, 0x98#8), (0x0102, 0x10#8), (0xF010, 0xF1#8), (0xF011, 0x50#8),
      (0xF150, 0xAA#8)] }

/-- The form `[$10,X]` of the example's LDA. -/
abbrev workedOperand : MemOperand := .indexed (.off8Ind .x 0x10#8)

section
variable (a b dp cc : Byte) (y u s : Word)

theorem workedExample_decode : decode ((workedExample a b dp cc y u s).codeBytes 5 0x0100#16) =
    .ok (ldaOf workedOperand, [0x00#8, 0x00#8]) :=
  decodeOfEncodeIsTheInstruction (ldaOf workedOperand) [0x00#8, 0x00#8] rfl

/-- The pointer that the form reads lies at $F010, high byte first; PC does not enter. -/
theorem workedExample_ea (pc : Word) :
    workedOperand.ea { workedExample a b dp cc y u s with pc := pc } = 0xF150#16 := by
  change joinBytes 0xF1#8 0x50#8 = 0xF150#16
  decide

end

/-- Settles O60: the step fetches LDA [$10,X], whose pointer at $F010 leads to $F150. -/
theorem workedExampleOfIndexedIndirect : Obligations.WorkedExampleOfIndexedIndirect := by
  intro a b dp cc y u s
  have hstep := stepRunsTheDecodedInstruction (workedExample a b dp cc y u s) _ _ rfl
    (workedExample_decode a b dp cc y u s) fun _ _ => rfl
  have hexec := exec_loadByte_ready (exec_ldaOf_reach workedOperand
    { workedExample a b dp cc y u s with pc := 0x0103#16 }) (fun _ _ _ => rfl) rfl
  rw [workedExample_ea] at hexec
  exact ⟨_, hstep.trans hexec, rfl, rfl, rfl⟩

end Sys2Proof.Machine
end

section
/-! PROOFS. LDA and LDB, and the flags of every load and store (R201, R202, R211). -/

namespace Sys2Proof.Machine

open Sys2Proof.Statements

/-! ## The 8-bit loads -/

/-- The flags of an 8-bit load made after the addressing mode, which changes none (R183, R211). -/
theorem moveFlags8_after (st : State) (o : MemOperand) (v : Byte) :
    MoveFlags v.msb (v == 0#8) st.cc (moveFlags8 v (o.after st).cc) := by
  rw [MemOperand.after_cc]
  exact moveFlags_moveFlags8 v st.cc

/-- Settles O31: the immediate operand is the byte itself, every other mode reads it at its address. -/
theorem ldaAndLdbLoadAByte : Obligations.LdaAndLdbLoadAByte := by
  intro st
  refine ⟨fun v => ?_, fun o hready hdata => ?_⟩
  · have hflags := moveFlags_moveFlags8 v st.cc
    exact ⟨⟨_, rfl, rfl, hflags⟩, _, rfl, rfl, hflags⟩
  · have hflags := moveFlags8_after st o (st.peek (o.ea st))
    exact ⟨⟨_, exec_loadByte_ready (exec_ldaOf_reach o st) hready hdata, rfl, hflags⟩,
      _, exec_loadByte_ready (exec_ldbOf_reach o st) hready hdata, rfl, hflags⟩

/-! ## The flags of a move, whatever memory answers -/

/-- Wherever the operation answers a state, the flags there are those of a move of the value that `reg` then
holds (R211). -/
def SetsMoveFlags {w : Nat} (reg : State → BitVec w) (op : State → Result) : Prop :=
  ∀ ⦃st t : State⦄, op st = .next t → MoveFlags (reg t).msb (reg t == 0#w) st.cc t.cc

/-- `put` writes its value to `reg`, with the flags of a load (R211). -/
def LoadsInto {w : Nat} (reg : State → BitVec w) (put : State → BitVec w → State) : Prop :=
  ∀ st v, reg (put st v) = v ∧ MoveFlags v.msb (v == 0#w) st.cc (put st v).cc

theorem LoadsInto.moveFlags {w : Nat} {reg : State → BitVec w} {put : State → BitVec w → State}
    (hput : LoadsInto reg put) (st : State) (v : BitVec w) :
    MoveFlags (reg (put st v)).msb (reg (put st v) == 0#w) st.cc (put st v).cc := by
  obtain ⟨hreg, hflags⟩ := hput st v
  rwa [hreg]

/-- LDD's pair holds the word that was split over it (R22, R203). -/
theorem loadD_loadsInto : LoadsInto (fun st => st.a ++ st.b) State.loadD := fun st v =>
  ⟨joinBytes_highByte_lowByte v, moveFlags_moveFlags16 v st.cc⟩

/-- The addressing mode changes no flag, so the move's flags are those of the whole instruction (R183). -/
theorem SetsMoveFlags.reach {w : Nat} {reg : State → BitVec w} {op : State → Result}
    (hop : SetsMoveFlags reg op) (o : MemOperand) :
    SetsMoveFlags reg fun st => andThen (reachOperand st o) op := fun st t h => by
  obtain ⟨u, hreach, hrest⟩ := andThen_eq_next.mp h
  have hflags := hop hrest
  rwa [(reachOperand_frame hreach).cc] at hflags

theorem loadByteAt_setsMoveFlags {reg : State → Byte} (put : State → Byte → State)
    (hput : LoadsInto reg put := by exact fun st v => ⟨rfl, moveFlags_moveFlags8 v st.cc⟩) :
    SetsMoveFlags reg (loadByteAt put) := fun st t h => by
  obtain ⟨⟨v, u⟩, hread, hnext⟩ := andThen_eq_next.mp h
  cases hnext
  have hcc : u.cc = st.cc := by rw [readByte_frame hread]
  rw [← hcc]
  exact hput.moveFlags u v

theorem loadWordAt_setsMoveFlags {reg : State → Word} (put : State → Word → State)
    (hput : LoadsInto reg put := by exact fun st v => ⟨rfl, moveFlags_moveFlags16 v st.cc⟩) :
    SetsMoveFlags reg (loadWordAt put) := fun st t h => by
  obtain ⟨⟨v, u⟩, hread, hnext⟩ := andThen_eq_next.mp h
  cases hnext
  have hcc : u.cc = st.cc := by rw [readWord_frame hread]
  rw [← hcc]
  exact hput.moveFlags u v

/-- A store leaves the register it stores, which reads no part of the state that a write changes. -/
theorem storeWordAt_setsMoveFlags (get : State → Word)
    (hget : ∀ (st : State) mem cc devices draws,
      get { st with mem := mem, cc := cc, devices := devices, draws := draws } = get st := by
        exact fun _ _ _ _ _ => rfl) :
    SetsMoveFlags get (storeWordAt get) := fun st t h => by
  obtain ⟨u, hwrite, hnext⟩ := andThen_eq_next.mp h
  have ht : t = { st with
      mem := u.mem, cc := moveFlags16 (get st) st.cc, devices := u.devices, draws := u.draws } := by
    cases hnext
    rw [writeWord_frame hwrite]
  have hreg : get t = get st := by
    rw [ht]
    exact hget st _ _ _ _
  rw [hreg, ht]
  exact moveFlags_moveFlags16 (get st) st.cc

/-! ## The instructions -/

/-- The flags of LDA and LDB, mode by mode; the other instructions move no byte. -/
theorem exec_movedByte_moveFlags {i : Instr} {st t : State} {v : Byte} (h : exec i st = .next t)
    (hv : movedByte t i = some v) : MoveFlags v.msb (v == 0#8) st.cc t.cc := by
  cases i with cases hv
  | ldaImm m | ldbImm m =>
    cases h
    exact moveFlags_moveFlags8 m st.cc
  | ldaDir lo | ldbDir lo => exact (loadByteAt_setsMoveFlags _).reach (.direct lo) h
  | ldaIdx ix | ldbIdx ix => exact (loadByteAt_setsMoveFlags _).reach (.indexed ix) h
  | ldaExt addr | ldbExt addr => exact (loadByteAt_setsMoveFlags _).reach (.extended addr) h

/-- The flags of the 16-bit loads and stores, mode by mode; the other instructions move no word. -/
theorem exec_movedWord_moveFlags {i : Instr} {st t : State} {v : Word} (h : exec i st = .next t)
    (hv : movedWord t i = some v) : MoveFlags v.msb (v == 0#16) st.cc t.cc := by
  cases i with cases hv
  | lddImm m =>
    cases h
    exact loadD_loadsInto.moveFlags (eaImm16 st) m
  | ldxImm m | ldyImm m | lduImm m =>
    cases h
    exact moveFlags_moveFlags16 m st.cc
  | lddDir lo => exact (loadWordAt_setsMoveFlags _ loadD_loadsInto).reach (.direct lo) h
  | lddIdx ix => exact (loadWordAt_setsMoveFlags _ loadD_loadsInto).reach (.indexed ix) h
  | lddExt addr => exact (loadWordAt_setsMoveFlags _ loadD_loadsInto).reach (.extended addr) h
  | ldxDir lo | ldyDir lo | lduDir lo => exact (loadWordAt_setsMoveFlags _).reach (.direct lo) h
  | ldxIdx ix | ldyIdx ix | lduIdx ix => exact (loadWordAt_setsMoveFlags _).reach (.indexed ix) h
  | ldxExt addr | ldyExt addr | lduExt addr => exact (loadWordAt_setsMoveFlags _).reach (.extended addr) h
  | stdDir lo => exact (storeWordAt_setsMoveFlags State.d).reach (.direct lo) h
  | stdIdx ix => exact (storeWordAt_setsMoveFlags State.d).reach (.indexed ix) h
  | stdExt addr => exact (storeWordAt_setsMoveFlags State.d).reach (.extended addr) h
  | stxDir lo | stuDir lo => exact (storeWordAt_setsMoveFlags _).reach (.direct lo) h
  | stxIdx ix | stuIdx ix => exact (storeWordAt_setsMoveFlags _).reach (.indexed ix) h
  | stxExt addr | stuExt addr => exact (storeWordAt_setsMoveFlags _).reach (.extended addr) h

/-- Settles O34: a move is of one byte or of one word, and each has the flags of what it moves. -/
theorem everyLoadAndStoreSetsTheMoveFlags : Obligations.EveryLoadAndStoreSetsTheMoveFlags :=
  fun _ _ _ h => ⟨fun _ hv => exec_movedByte_moveFlags h hv, fun _ hv => exec_movedWord_moveFlags h hv⟩

end Sys2Proof.Machine
end

section
/-! PROOFS. ABX, ASRA, CLRB, DAA and NOP (R231, R233 to R236). -/

namespace Sys2Proof.Machine

/-! ## ABX, CLRB and NOP -/

/-- Settles O40: B is widened with zeros for ABX; the flags of CLRB are those of its own flag computation. -/
theorem abxClrbAndNop : Obligations.AbxClrbAndNop := by
  intro st
  refine ⟨⟨_, rfl, rfl, ?_⟩, ⟨_, rfl, rfl, fun g => ?_⟩, rfl⟩
  · have hwiden : (zext8 st.b).toNat = st.b.toNat := BitVec.toNat_setWidth_of_le (by decide)
    rw [BitVec.toNat_add, hwiden]
  · cases g <;> exact getFlag_clrFlags st.cc _

/-! ## ASRA -/

theorem asrResult_toInt (a : Byte) : (asrResult a).toInt = a.toInt.fdiv 2 := by
  rw [asrResult, BitVec.toInt_sshiftRight, Int.shiftRight_eq_div_pow]
  exact (Int.fdiv_eq_ediv_of_nonneg _ (by decide)).symm

theorem getLsbD_zero_eq_odd (a : Byte) : a.getLsbD 0 = decide (a.toNat % 2 = 1) := by
  rw [← BitVec.testBit_toNat, Nat.testBit_zero]

/-- Settles O39: the arithmetic shift is the division, and each flag is read off ASRA's flag computation. -/
theorem asraHalvesTheSignedAccumulator : Obligations.AsraHalvesTheSignedAccumulator := by
  intro st
  have hflag := getFlag_asrFlags st.a st.cc st.drawBit.1
  refine ⟨_, rfl, rfl, asrResult_toInt st.a, (hflag .c).trans (getLsbD_zero_eq_odd st.a),
    (hflag .n).trans BitVec.msb_eq_toInt, hflag .z, ?_⟩
  rintro g (rfl | rfl | rfl | rfl) <;> exact hflag _

/-! ## DAA -/

/-- The correction of R235 over the numbers: 6 for the low digit, 96 for the high one. -/
def decimalCorrection (a : Nat) (h c : Bool) : Nat :=
  (if h = true ∨ 9 < a % 16 then 6 else 0) +
    (if c = true ∨ 9 < a / 16 ∨ (8 < a / 16 ∧ 9 < a % 16) then 96 else 0)

theorem decimalCorrection_le (a : Nat) (h c : Bool) : decimalCorrection a h c ≤ 102 := by
  unfold decimalCorrection
  split <;> split <;> decide

theorem lowDigit_toNat (a : Byte) : (a.extractLsb' 0 4).toNat = a.toNat % 16 := by
  rw [BitVec.extractLsb'_toNat, Nat.shiftRight_zero]

theorem highDigit_toNat (a : Byte) : (a.extractLsb' 4 4).toNat = a.toNat / 16 := by
  have hlt : a.toNat / 16 < 16 := by omega
  rw [BitVec.extractLsb'_toNat, Nat.shiftRight_eq_div_pow, Nat.mod_eq_of_lt hlt]

theorem daaCorrection_toNat (a : Byte) (h c : Bool) :
    (daaCorrection a h c).toNat = decimalCorrection a.toNat h c := by
  simp only [daaCorrection, decimalCorrection, lowDigit_toNat, highDigit_toNat, Bool.or_eq_true,
    Bool.and_eq_true, decide_eq_true_eq, or_assoc]
  split <;> split <;> rfl

/-- Nine bits hold the sum. -/
theorem daaSum_toNat (a : Byte) (h c : Bool) :
    (daaSum a h c).toNat = a.toNat + decimalCorrection a.toNat h c := by
  have hle := decimalCorrection_le a.toNat h c
  rw [daaSum, BitVec.toNat_add, BitVec.toNat_setWidth_of_le (by decide),
    BitVec.toNat_setWidth_of_le (by decide), daaCorrection_toNat, Nat.mod_eq_of_lt (by omega)]

theorem daaResult_toNat (a : Byte) (h c : Bool) :
    (daaResult a h c).toNat = (a.toNat + decimalCorrection a.toNat h c) % 256 := by
  rw [daaResult, BitVec.toNat_setWidth, daaSum_toNat]

theorem daaSum_carry (a : Byte) (h c : Bool) :
    (daaSum a h c).getLsbD 8 = decide (256 ≤ a.toNat + decimalCorrection a.toNat h c) := by
  rw [← daaSum_toNat]
  exact (BitVec.msb_eq_getLsbD_last _).symm.trans (BitVec.msb_eq_decide _)

/-- Settles O41: the result and the carry over the numbers, the flags from DAA's flag computation. -/
theorem daaAddsTheDecimalCorrection : Obligations.DaaAddsTheDecimalCorrection := by
  intro st
  have hflag := getFlag_daaFlags st.a st.cc st.drawBit.1
  refine ⟨_, rfl, rfl, daaResult_toNat st.a _ _, ?_,
    (hflag .n).trans (BitVec.msb_eq_getLsbD_last _), hflag .z, ?_⟩
  · exact (hflag .c).trans (congrArg (getFlag st.cc .c || ·) (daaSum_carry st.a _ _))
  · rintro g (rfl | rfl | rfl | rfl) <;> exact hflag _

/-! ## DAA after an addition of packed decimal bytes -/

/-- After a binary addition of packed decimal bytes whose low digits add up to `low` and whose high digits add
up to `high`, DAA corrects exactly the digits whose decimal sum carries. -/
theorem decimalCorrection_of_digitSums {low high : Nat} (hlow : low ≤ 18) (hhigh : high ≤ 18) :
    decimalCorrection ((16 * high + low) % 256) (decide (16 ≤ low)) (decide (256 ≤ 16 * high + low)) =
      (if 10 ≤ low then 6 else 0) + (if 10 ≤ high + low / 10 then 96 else 0) := by
  have hlowDigit : 16 ≤ low ∨ 9 < (16 * high + low) % 256 % 16 ↔ 10 ≤ low := by omega
  have hhighDigit : 256 ≤ 16 * high + low ∨ 9 < (16 * high + low) % 256 / 16 ∨
      (8 < (16 * high + low) % 256 / 16 ∧ 9 < (16 * high + low) % 256 % 16) ↔
        10 ≤ high + low / 10 := by omega
  simp only [decimalCorrection, decide_eq_true_eq, hlowDigit, hhighDigit]

/-- Settles O42: DAA's sum is that of O41, with the correction that the two digit sums call for. -/
theorem daaCorrectsAPackedDecimalSum : Obligations.DaaCorrectsAPackedDecimalSum := by
  intro st p1 p0 q1 q0 hp1 hp0 hq1 hq0 ha hh hc
  obtain ⟨t, hexec, -, hresult, hcarry, -⟩ := daaAddsTheDecimalCorrection st
  have hsum : 16 * p1 + p0 + (16 * q1 + q0) = 16 * (p1 + q1) + (p0 + q0) := by omega
  have hcorrection := decimalCorrection_of_digitSums (low := p0 + q0) (high := p1 + q1)
    (by omega) (by omega)
  rw [← hsum, ← ha, ← hh, ← hc] at hcorrection
  change t.a.toNat = (st.a.toNat + decimalCorrection st.a.toNat _ _) % 256 at hresult
  change _ = (_ || decide (256 ≤ st.a.toNat + decimalCorrection st.a.toNat _ _)) at hcarry
  rw [hcorrection, ha] at hresult
  rw [hcorrection, ha, hc, ← Bool.decide_or] at hcarry
  refine ⟨t, hexec, ?_, hcarry.trans (decide_eq_decide.mpr ?_)⟩
  · split at hresult <;> split at hresult <;> omega
  · split <;> split <;> omega

end Sys2Proof.Machine
end

section
/-! PROOFS. Register transfer and exchange (R251, R256, R257): what a register reads after a register was
written, which registers of one width share no storage, and when a write arms NMI. -/

namespace Sys2Proof.Machine

open Sys2Proof.Statements

/-! ## Reading a register after a write -/

@[simp] theorem lowByte_zext8 (v : Byte) : lowByte (zext8 v) = v := by
  rw [lowByte, zext8, ← BitVec.setWidth_eq_extractLsb' (by decide), BitVec.setWidth_setWidth_of_le v (by decide),
    BitVec.setWidth_eq]

/-- What an 8-bit register holds lies in the low byte (R251). -/
theorem State.zext8_lowByte_readReg {r : Reg} (h : r.isWide = false) (st : State) :
    zext8 (lowByte (st.readReg r)) = st.readReg r := by
  cases r with
  | a | b | cc | dp => exact congrArg zext8 (lowByte_zext8 _)
  | d | x | y | u | s | pc => cases h

theorem State.readReg_writeReg_same {r : Reg} {v : Word} (h : r.isWide = false → zext8 (lowByte v) = v)
    (st : State) : (st.writeReg r v).readReg r = v := by
  cases r with
  | d => exact joinBytes_highByte_lowByte v
  | x | y | u | s | pc => rfl
  | a | b | cc | dp => exact h rfl

/-- A register takes over the value of another of its width whole. -/
theorem State.readReg_writeReg_readReg {r q : Reg} (h : q.isWide = r.isWide) (st u : State) :
    (u.writeReg r (st.readReg q)).readReg r = st.readReg q :=
  State.readReg_writeReg_same (fun hnarrow => State.zext8_lowByte_readReg (h.trans hnarrow) st) u

theorem State.readReg_writeReg_other {r q : Reg} (h : overlap r q = false) (st : State) (v : Word) :
    (st.writeReg q v).readReg r = st.readReg r := by
  cases q with
  | d =>
    cases r with
    | d | a | b => cases h
    | x | y | u | s | pc | cc | dp => rfl
  | a | b | x | y | u | s | pc | cc | dp => cases r <;> first | rfl | cases h

theorem overlap_of_ne {r q : Reg} (hwidth : r.isWide = q.isWide) (hne : r ≠ q) : overlap r q = false := by
  have hwide : r = .d → q ≠ .a ∧ q ≠ .b := by
    rintro rfl
    constructor <;> rintro rfl <;> cases hwidth
  have hwide' : q = .d → r ≠ .a ∧ r ≠ .b := by
    rintro rfl
    constructor <;> rintro rfl <;> cases hwidth
  simpa [overlap, hne] using ⟨hwide, hwide'⟩

/-- A write of S arms NMI (R318). -/
theorem State.writeReg_nmiArmed (st : State) (r : Reg) (v : Word) :
    (st.writeReg r v).nmiArmed = (st.nmiArmed || r == .s) := by
  cases r with
  | s => exact (Bool.or_true _).symm
  | d | x | y | u | pc | a | b | cc | dp => exact (Bool.or_false _).symm

theorem whenSameWidth_next {r1 r2 : Reg} (h : r1.isWide = r2.isWide) (op : State → State) (st : State) :
    whenSameWidth r1 r2 op st = .next (op st) :=
  if_pos (beq_iff_eq.mpr h)

/-! ## The two instructions -/

/-- Settles O43: TFR is one write of the destination. -/
theorem tfrCopiesTheSource : Obligations.TfrCopiesTheSource := fun st r1 r2 hwidth =>
  ⟨transfer r1 r2 st, whenSameWidth_next hwidth _ st, State.readReg_writeReg_readReg hwidth st st,
    fun _ hr => State.readReg_writeReg_other hr st _, State.writeReg_nmiArmed st r2 _,
    by simp [transfer]⟩

/-- The register written first keeps its new value: the other is written with the value the first gave away,
and shares storage with it only where the two are the same register. -/
theorem exchange_readReg_first {r1 r2 : Reg} (hwidth : r1.isWide = r2.isWide) (st : State) :
    (exchange r1 r2 st).readReg r1 = st.readReg r2 := by
  by_cases hsame : r1 = r2
  · subst hsame
    exact State.readReg_writeReg_readReg rfl st _
  · calc (exchange r1 r2 st).readReg r1
      _ = (st.writeReg r1 (st.readReg r2)).readReg r1 :=
        State.readReg_writeReg_other (overlap_of_ne hwidth hsame) _ _
      _ = st.readReg r2 := State.readReg_writeReg_readReg hwidth.symm st st

/-- Settles O44: EXG is a write of each register, both values read before. -/
theorem exgSwapsTheTwo : Obligations.ExgSwapsTheTwo := fun st r1 r2 hwidth =>
  ⟨exchange r1 r2 st, whenSameWidth_next hwidth _ st, State.readReg_writeReg_readReg hwidth st _,
    exchange_readReg_first hwidth st,
    fun _ hr1 hr2 => (State.readReg_writeReg_other hr2 _ _).trans (State.readReg_writeReg_other hr1 st _),
    by simp only [exchange, State.writeReg_nmiArmed], by simp [exchange]⟩

end Sys2Proof.Machine
end

section
/-! PROOFS. PSHS and PULU (R253, R254, R258 to R260): a list's bytes lie in one order on both stacks, so that a
pull of a list gives back what a push of it stacked. -/

namespace Sys2Proof.Machine

open Sys2Proof.Statements

/-! ## The bytes at an address and after it -/

theorem State.codeBytes_drop (st : State) (n m : Nat) (addr : Word) :
    (st.codeBytes n addr).drop m = st.codeBytes (n - m) (addr + BitVec.ofNat 16 m) := by
  induction m generalizing n addr with
  | zero => simp
  | succ m ih =>
    cases n with
    | zero => simp [State.codeBytes]
    | succ n => rw [State.codeBytes, List.drop_succ_cons, ih, ← add_ofNat_succ, Nat.succ_sub_succ]

theorem byteOf_codeBytes (st : State) {n k : Nat} (h : k < n) (addr : Word) :
    byteOf (st.codeBytes n addr) k = st.peek (addr + BitVec.ofNat 16 k) := by
  rw [← Nat.add_zero k, ← byteOf_drop, State.codeBytes_drop, Nat.add_zero,
    ← Nat.succ_pred_eq_of_pos (Nat.sub_pos_of_lt h)]
  rfl

theorem wordOf_codeBytes (st : State) {n k : Nat} (h : k + 1 < n) (addr : Word) :
    wordOf (st.codeBytes n addr) k = st.peekWord (addr + BitVec.ofNat 16 k) := by
  rw [wordOf, byteOf_codeBytes st (by omega), byteOf_codeBytes st h, BitVec.ofNat_add,
    ← BitVec.add_assoc]
  rfl

/-! ## Reads of RAM and ROM, writes that meet no device -/

/-- A run of reads in RAM and ROM answers what memory holds and has no side effect (R61). -/
theorem readUp_backed {n : Nat} {addr : Word} {st : State} (h : BackedFrom st addr n) :
    readUp n addr st = .next (st.codeBytes n addr, st) := by
  induction n generalizing addr with
  | zero => rfl
  | succ n ih =>
    obtain ⟨hfirst, hlater⟩ := backedFrom_succ h
    simp [readUp, readByte_backed hfirst, ih hlater, State.codeBytes]

theorem pullUp_backed {k : Stack} {n : Nat} {st : State} (put : List Byte → State → State)
    (h : BackedFrom st (st.sp k) n) :
    pullUp k n put st =
      .next ((put (st.codeBytes n (st.sp k)) st).setSp k (st.sp k + BitVec.ofNat 16 n)) := by
  rw [pullUp, readUp_backed h, andThen_next]

/-- A run of writes touches a device only where one lies at one of its addresses (R61). -/
theorem writeDown_sameDevices {vs : List Byte} {addr : Word} {st t : State} (h : writeDown vs addr st = .next t)
    (hnone : ∀ j, j < vs.length → ∀ d, st.kindAt (addr - BitVec.ofNat 16 j) ≠ .device d) :
    t.devices = st.devices ∧ t.draws = st.draws := by
  induction vs generalizing addr st with
  | nil =>
    cases h
    exact ⟨rfl, rfl⟩
  | cons v vs ih =>
    obtain ⟨u, hwrite, hwrites⟩ := andThen_eq_next.mp h
    obtain ⟨-, rfl⟩ := writeByte_eq_next.mp hwrite
    obtain ⟨hdevices, hdraws⟩ := State.store_devices_of_not_device st addr v (by simpa using hnone 0 (by simp))
    obtain ⟨hdevices', hdraws'⟩ := ih hwrites fun j hj d => by
      rw [State.store_kindAt, ← sub_ofNat_succ]
      exact hnone (j + 1) (by simpa using hj) d
    exact ⟨hdevices'.trans hdevices, hdraws'.trans hdraws⟩

/-- A push of bytes onto addresses that answer: S falls by their number and they lie above it, the last one
pushed lowest (R254). -/
theorem pushDown_mapped {frame : List Byte} {st : State} (hlength : frame.length ≤ 65536)
    (h : MappedFrom st (st.s - BitVec.ofNat 16 frame.length) frame.length) :
    ∃ t, pushDown frame.reverse st = .next t ∧
      t = { st with s := st.s - BitVec.ofNat 16 frame.length, mem := t.mem, devices := t.devices,
                    draws := t.draws } ∧
      FrameStacked st t frame ∧
      SameDevicesUnlessIn st t (st.s - BitVec.ofNat 16 frame.length) frame.length := by
  have haddress {j : Nat} (hj : j < frame.reverse.length) :
      ∃ k < frame.length, st.s - 1#16 - BitVec.ofNat 16 j =
        st.s - BitVec.ofNat 16 frame.length + BitVec.ofNat 16 k := by
    rw [List.length_reverse] at hj
    exact ⟨frame.length - 1 - j, by omega, frame_address st.s hj⟩
  obtain ⟨u, hwrite⟩ := writeDown_mapped (vs := frame.reverse) (addr := st.s - 1#16) (st := st) fun j hj => by
    obtain ⟨k, hk, he⟩ := haddress hj
    rw [he]
    exact h k hk
  refine ⟨{ u with s := st.s - BitVec.ofNat 16 frame.length }, ?_, ?_, writeDown_frameStacked hwrite rfl hlength,
    fun hnone => writeDown_sameDevices (t := u) hwrite fun j hj d => ?_⟩
  · rw [pushDown, hwrite, List.length_reverse]
    rfl
  · rw [writeDown_frame hwrite]
  · obtain ⟨k, hk, he⟩ := haddress hj
    rw [he]
    exact hnone k hk d

/-! ## The members of a list -/

theorem memberOffset_succ (list : Byte) (k : Nat) :
    memberOffset list (k + 1) = memberOffset list k + if list.getLsbD k then memberBytes k else 0 := by
  simp [memberOffset, List.range_succ]

/-- The bytes of a listed member are among the list's. -/
theorem memberOffset_le_listBytes {list : Byte} {k : Nat} (hk : k < 8) (h : list.getLsbD k = true) :
    memberOffset list k + memberBytes k ≤ listBytes list := by
  have hmono : Monotone (memberOffset list) := monotone_nat_of_le_succ fun j => by
    rw [memberOffset_succ]
    exact Nat.le_add_right _ _
  have hsucc := memberOffset_succ list k
  rw [if_pos h] at hsucc
  rw [← hsucc]
  exact hmono (Nat.succ_le_of_lt hk)

theorem listBytes_le (list : Byte) : listBytes list ≤ 12 :=
  calc listBytes list
    _ ≤ ((List.range 8).map memberBytes).sum := List.sum_le_sum fun j _ => by
      split
      · exact Nat.le_refl _
      · exact Nat.zero_le _
    _ = 12 := rfl

theorem byteOf_member (st : State) (base : Word) {list : Byte} {k : Nat} (hk : k < 8)
    (h : list.getLsbD k = true) :
    byteOf (st.codeBytes (listBytes list) base) (memberOffset list k) = st.peek (memberAt base list k) := by
  have hle := memberOffset_le_listBytes hk h
  refine byteOf_codeBytes st ?_ base
  unfold memberBytes at hle
  split at hle <;> omega

theorem wordOf_member (st : State) (base : Word) {list : Byte} {k : Nat} (hwide : 4 ≤ k) (hk : k < 8)
    (h : list.getLsbD k = true) :
    wordOf (st.codeBytes (listBytes list) base) (memberOffset list k) =
      st.peekWord (memberAt base list k) := by
  have hle := memberOffset_le_listBytes hk h
  rw [memberBytes, if_pos hwide] at hle
  exact wordOf_codeBytes st (by omega) base

/-- The bytes of each member of a list, CC first, nothing for a register that is not listed (R253). -/
def listMembers (list : Byte) (st : State) : List (List Byte) :=
  [if list.getLsbD 0 then [st.cc] else [], if list.getLsbD 1 then [st.a] else [],
    if list.getLsbD 2 then [st.b] else [], if list.getLsbD 3 then [st.dp] else [],
    if list.getLsbD 4 then [highByte st.x, lowByte st.x] else [],
    if list.getLsbD 5 then [highByte st.y, lowByte st.y] else [],
    if list.getLsbD 6 then [highByte st.u, lowByte st.u] else [],
    if list.getLsbD 7 then [highByte st.pc, lowByte st.pc] else []]

/-- What PSHS pushes, from the lowest byte up. -/
theorem flatten_listMembers (list : Byte) (st : State) :
    (listMembers list st).flatten = (listDown list st).reverse := by
  simp [listMembers, listDown, apply_ite List.reverse]

theorem length_flatten_listMembers (list : Byte) (st : State) :
    (listMembers list st).flatten.length = listBytes list := by
  rw [flatten_listMembers, List.length_reverse, length_listDown]

theorem memberOffset_eq_sum (list : Byte) (st : State) {k : Nat} (hk : k < 8) :
    memberOffset list k = (((listMembers list st).map List.length).take k).sum := by
  have hlengths : (listMembers list st).map List.length =
      (List.range 8).map fun j => if list.getLsbD j then memberBytes j else 0 := by
    simp [listMembers, List.range_succ, memberBytes, apply_ite List.length]
  rw [hlengths, ← List.map_take, List.take_range, Nat.min_eq_left hk.le, memberOffset]

/-- Each member lies at its offset. -/
theorem drop_memberOffset {list : Byte} {st : State} {k : Nat} {member : List Byte} (hk : k < 8)
    (hmember : (listMembers list st)[k]? = some member) :
    ∃ later, (listMembers list st).flatten.drop (memberOffset list k) = member ++ later := by
  obtain ⟨hlength, hget⟩ := List.getElem?_eq_some_iff.mp hmember
  refine ⟨((listMembers list st).drop (k + 1)).flatten, ?_⟩
  rw [memberOffset_eq_sum list st hk, List.drop_sum_flatten, List.drop_eq_getElem_cons hlength, hget,
    List.flatten_cons]

section
variable {st t : State} {base : Word} {list : Byte}

theorem peek_memberAt (hcode : t.codeBytes (listBytes list) base = (listMembers list st).flatten) {k : Nat}
    {v : Byte} (hk : k < 8) (hmember : (listMembers list st)[k]? = some (if list.getLsbD k then [v] else []))
    (h : list.getLsbD k = true) : t.peek (memberAt base list k) = v := by
  rw [if_pos h] at hmember
  obtain ⟨later, hdrop⟩ := drop_memberOffset hk hmember
  rw [← byteOf_member t base hk h, hcode, ← Nat.add_zero (memberOffset list k), ← byteOf_drop, hdrop]
  rfl

theorem peekWord_memberAt (hcode : t.codeBytes (listBytes list) base = (listMembers list st).flatten) {k : Nat}
    {v : Word} (hwide : 4 ≤ k) (hk : k < 8)
    (hmember : (listMembers list st)[k]? = some (if list.getLsbD k then [highByte v, lowByte v] else []))
    (h : list.getLsbD k = true) : t.peekWord (memberAt base list k) = v := by
  rw [if_pos h] at hmember
  obtain ⟨later, hdrop⟩ := drop_memberOffset hk hmember
  rw [← wordOf_member t base hwide hk h, hcode, wordOf, ← Nat.add_zero (memberOffset list k), ← byteOf_drop,
    Nat.add_assoc, ← byteOf_drop, hdrop]
  exact joinBytes_highByte_lowByte v

/-- A list's bytes hold each listed register at its member's place. -/
theorem listStacked_of_codeBytes (hcode : t.codeBytes (listBytes list) base = (listMembers list st).flatten) :
    ListStacked st t base list :=
  ⟨peek_memberAt hcode (by decide) rfl, peek_memberAt hcode (by decide) rfl,
    peek_memberAt hcode (by decide) rfl, peek_memberAt hcode (by decide) rfl,
    peekWord_memberAt hcode (by decide) (by decide) rfl, peekWord_memberAt hcode (by decide) (by decide) rfl,
    peekWord_memberAt hcode (by decide) (by decide) rfl, peekWord_memberAt hcode (by decide) (by decide) rfl⟩

end

/-! ## The two instructions -/

theorem ite_listed {α : Type} {c : Bool} {v v' kept : α} (h : c = true → v = v') :
    (if c then v else kept) = if c then v' else kept :=
  ite_congr rfl h fun _ => rfl

/-- Settles O45: PSHS pushes the bytes of the listed registers, which lie in RAM in the order of the members. -/
theorem pshsStacksTheListedRegisters : Obligations.PshsStacksTheListedRegisters := by
  intro st list hmapped
  have hlength := length_flatten_listMembers list st
  have hle : (listMembers list st).flatten.length ≤ 65536 := by
    have := listBytes_le list
    omega
  rw [← hlength] at hmapped ⊢
  obtain ⟨t, hpush, ht, ⟨hmem, hstacked⟩, hdevices⟩ := pushDown_mapped hle hmapped
  rw [flatten_listMembers, List.reverse_reverse, ← pushList_eq] at hpush
  refine ⟨t, hpush, ht, hmem, hdevices, fun hwf hram => listStacked_of_codeBytes ?_⟩
  rw [← hlength]
  exact hstacked hwf hram

/-- Settles O46: PULU reads the list's bytes going up from U, each register from its member's place. -/
theorem puluLoadsTheListedRegisters : Obligations.PuluLoadsTheListedRegisters := by
  intro st list hbacked
  have hpull : exec (.pulu list) st = .next
      ((putList list (st.codeBytes (listBytes list) st.u) st).setSp .u
        (st.u + BitVec.ofNat 16 (listBytes list))) :=
    ((pullList_pulls list).eq st).trans (pullUp_backed (k := .u) (putList list) hbacked)
  have byte {k : Nat} (hk : k < 8) (kept : Byte) :
      (if list.getLsbD k then byteOf (st.codeBytes (listBytes list) st.u) (memberOffset list k) else kept) =
        if list.getLsbD k then st.peek (memberAt st.u list k) else kept :=
    ite_listed (byteOf_member st st.u hk)
  have word {k : Nat} (hwide : 4 ≤ k) (hk : k < 8) (kept : Word) :
      (if list.getLsbD k then wordOf (st.codeBytes (listBytes list) st.u) (memberOffset list k) else kept) =
        if list.getLsbD k then st.peekWord (memberAt st.u list k) else kept :=
    ite_listed (wordOf_member st st.u hwide hk)
  simp (disch := decide) only [hpull, putList, byte, word]
  rfl

/-- Settles O47: PULU takes each register from where PSHS put it. -/
theorem pullOfTheSameListUndoesThePush : Obligations.PullOfTheSameListUndoesThePush := by
  intro st t w list hwf hram hpush hmem hmap hu
  obtain ⟨t', hpush', ht, -, -, hstacked⟩ := pshsStacksTheListedRegisters st list
    (mappedFrom_of_backedFrom (backedFrom_of_ramFrom hram))
  obtain rfl : t' = t := Host.Outcome.next.inj (hpush'.symm.trans hpush)
  have hbase : w.u = st.s - BitVec.ofNat 16 (listBytes list) := by rw [hu, ht]
  have hbacked : BackedFrom w w.u (listBytes list) := fun k hk => by
    have hkind (a : Word) : w.kindAt a = st.kindAt a := by rw [State.kindAt, hmap, ht]; rfl
    rw [hbase, State.backed, hkind, hram k hk]
    rfl
  have hpeek (a : Word) : w.peek a = t'.peek a := by rw [State.peek, hmem]; rfl
  have hpeekWord (a : Word) : w.peekWord a = t'.peekWord a := by simp only [State.peekWord, hpeek]
  obtain ⟨hcc, ha, hb, hdp, hx, hy, hs, hpc⟩ := hstacked hwf hram
  rw [puluLoadsTheListedRegisters w list hbacked]
  simp only [hpeek, hpeekWord, hbase, ite_listed hcc, ite_listed ha, ite_listed hb, ite_listed hdp,
    ite_listed hx, ite_listed hy, ite_listed hs, ite_listed hpc, BitVec.sub_add_cancel]

end Sys2Proof.Machine
end

section
/-! PROOFS. Conditional branches (spec/45_branches.md R270 to R277). -/

namespace Sys2Proof.Machine

/-! ## The conditions (R272) -/

theorem condEq_iff {cc : Byte} : condEq cc = true ↔ cc.getLsbD 2 = true := Iff.rfl

theorem condGt_iff {cc : Byte} :
    condGt cc = true ↔ cc.getLsbD 2 = false ∧ cc.getLsbD 3 = cc.getLsbD 1 := by
  simp [condGt, getFlag, Flag.bit]

/-! ## The branch -/

theorem branchIf_not_taken {cond : Byte → Bool} {st : State} (off : Word) (hcond : ¬ cond st.cc = true) :
    branchIf cond off st = .next st := by
  rw [branchIf, if_neg hcond]

/-- A branch writes PC alone, and by the condition the spec writes for it (R270). -/
theorem branchIf_eq_of_iff {cond : Byte → Bool} {st : State} {p : Prop} [Decidable p] (off : Word)
    (hcond : cond st.cc = true ↔ p) :
    branchIf cond off st = .next { st with pc := if p then st.pc + off else st.pc } := by
  by_cases hp : p
  · rw [if_pos hp]
    exact branchIf_taken (hcond.mpr hp) rfl
  · rw [if_neg hp]
    exact branchIf_not_taken off (mt hcond.mp hp)

/-- Settles O48: each branch is `branchIf` with its condition read from the bits of CC. -/
theorem branchesTestTheirCondition : Obligations.BranchesTestTheirCondition := fun _ =>
  ⟨fun off => branchIf_eq_of_iff (sext8 off) condEq_iff, fun off => branchIf_eq_of_iff off condEq_iff,
    fun off => branchIf_eq_of_iff (sext8 off) condGt_iff, fun off => branchIf_eq_of_iff off condGt_iff⟩

end Sys2Proof.Machine
end

section
/-! PROOFS. The look at the inputs (R315 to R321): what latching an NMI edge leaves, which interrupt is recognised,
and the two waits (R295, R296). -/

namespace Sys2Proof.Machine

open Sys2Proof.Statements

/-! ## The NMI latch (R317) -/

/-- What a step without RESET goes on from: the input used up, the latch after the look at the edge. -/
theorem State.atFetch_eq (st : State) :
    st.atFetch = { st with env := st.env.tail, nmiPending := latchAfter st } := by
  unfold State.atFetch State.latchNmi latchAfter
  rw [State.dropInput_nmiArmed]
  cases st.input.nmiEdge && st.nmiArmed with
  | true => rw [if_pos rfl, Bool.or_true]; rfl
  | false => rw [if_neg Bool.false_ne_true, Bool.or_false]; rfl

/-- The latch is set while NMI is armed: that is an NMI to be taken (R319). -/
theorem takesNmi_atFetch {st : State} : st.atFetch.takesNmi = true ↔ NmiAtStep st := by
  rw [State.atFetch_eq]
  simp only [State.takesNmi, latchAfter, NmiAtStep, Bool.and_eq_true, Bool.or_eq_true]
  tauto

theorem latchAfter_of_nmiAtStep {st : State} (h : NmiAtStep st) : latchAfter st = true := by
  obtain ⟨harmed, hpending | hedge⟩ := h
  · rw [latchAfter, hpending, Bool.true_or]
  · rw [latchAfter, hedge, harmed, Bool.and_true, Bool.or_true]

/-- With no NMI to be taken the look at the edge leaves the latch. -/
theorem latchAfter_of_not_nmiAtStep {st : State} (h : ¬ NmiAtStep st) : latchAfter st = st.nmiPending := by
  have hedge : (st.input.nmiEdge && st.nmiArmed) = false := Bool.eq_false_iff.mpr fun hboth => by
    obtain ⟨hedge, harmed⟩ := Bool.and_eq_true_iff.mp hboth
    exact h ⟨harmed, .inr hedge⟩
  rw [latchAfter, hedge, Bool.or_false]

theorem State.atFetch_of_not_nmiAtStep {st : State} (h : ¬ NmiAtStep st) :
    st.atFetch = { st with env := st.env.tail } := by
  rw [State.atFetch_eq, latchAfter_of_not_nmiAtStep h]

/-! ## Recognition (R319, R320) -/

theorem takesFirq_atFetch {st : State} : st.atFetch.takesFirq st.input = true ↔ FirqAtStep st := by
  rw [State.atFetch_eq]
  simp [State.takesFirq, State.flag]

theorem takesIrq_atFetch {st : State} : st.atFetch.takesIrq st.input = true ↔ IrqAtStep st := by
  rw [State.atFetch_eq]
  simp [State.takesIrq, State.flag]

theorem recognised_nmi {st : State} (h : NmiAtStep st) : st.atFetch.recognised st.input = some .nmi :=
  if_pos (takesNmi_atFetch.mpr h)

theorem recognised_firq {st : State} (hnmi : ¬ NmiAtStep st) (h : FirqAtStep st) :
    st.atFetch.recognised st.input = some .firq := by
  rw [State.recognised, if_neg (mt takesNmi_atFetch.mp hnmi), if_pos (takesFirq_atFetch.mpr h)]

theorem recognised_irq {st : State} (hnmi : ¬ NmiAtStep st) (hfirq : ¬ FirqAtStep st) (h : IrqAtStep st) :
    st.atFetch.recognised st.input = some .irq := by
  rw [State.recognised, if_neg (mt takesNmi_atFetch.mp hnmi), if_neg (mt takesFirq_atFetch.mp hfirq),
    if_pos (takesIrq_atFetch.mpr h)]

theorem recognised_none {st : State} (hnmi : ¬ NmiAtStep st) (hfirq : ¬ FirqAtStep st) (hirq : ¬ IrqAtStep st) :
    st.atFetch.recognised st.input = none := by
  rw [State.recognised, if_neg (mt takesNmi_atFetch.mp hnmi), if_neg (mt takesFirq_atFetch.mp hfirq),
    if_neg (mt takesIrq_atFetch.mp hirq)]

/-! ## The step without RESET (R321) -/

theorem step_of_no_reset {st : State} (h : st.input.reset = false) :
    step st = boundary executeOne st.input st.atFetch := by
  rw [step, stepWith, h]
  rfl

theorem State.atFetch_runState (st : State) : st.atFetch.runState = st.runState := by
  rw [State.atFetch_eq]

theorem step_of_syncWait {st : State} (hwait : st.runState = .syncWait) (hreset : st.input.reset = false) :
    step st = syncWaitStep st.input st.atFetch := by
  rw [step_of_no_reset hreset, boundary, State.atFetch_runState, hwait]

theorem step_of_cwaiWait {st : State} (hwait : st.runState = .cwaiWait) (hreset : st.input.reset = false) :
    step st = cwaiWaitStep st.input st.atFetch := by
  rw [step_of_no_reset hreset, boundary, State.atFetch_runState, hwait]

/-- A step looks at the NMI edge only to latch it: while NMI is not armed it is the step without the edge. -/
theorem step_dropEdge {st : State} (h : st.nmiArmed = false) :
    step st = step { st with env := { st.input with nmiEdge := false } :: st.env.tail } := by
  have hlatch (inp : EnvInput) : st.dropInput.latchNmi inp = st.dropInput := by
    rw [State.latchNmi, State.dropInput_nmiArmed, h, Bool.and_false]
    rfl
  have hdrop : State.dropInput { st with env := { st.input with nmiEdge := false } :: st.env.tail } =
      st.dropInput := rfl
  simp only [step, stepWith, hdrop, hlatch]
  rfl

/-! ## SYNC (R296) -/

theorem syncWaitStep_ends {st : State} (hwait : st.runState = .syncWait) (hreset : st.input.reset = false)
    (h : NmiAtStep st ∨ st.input.firq = true ∨ st.input.irq = true) :
    step st = .next { st with env := st.env.tail, nmiPending := latchAfter st, runState := .running } := by
  have hends : (st.atFetch.takesNmi || st.input.firq || st.input.irq) = true := by
    rw [Bool.or_eq_true, Bool.or_eq_true, takesNmi_atFetch, or_assoc]
    exact h
  rw [step_of_syncWait hwait hreset, syncWaitStep, if_pos hends, State.atFetch_eq]

theorem syncWaitStep_goes_on {st : State} (hwait : st.runState = .syncWait) (hreset : st.input.reset = false)
    (hnmi : ¬ NmiAtStep st) (hfirq : st.input.firq = false) (hirq : st.input.irq = false) :
    step st = .next { st with env := st.env.tail } := by
  have hnone : ¬ (st.atFetch.takesNmi || st.input.firq || st.input.irq) = true := by
    rw [hfirq, hirq, Bool.or_false, Bool.or_false, takesNmi_atFetch]
    exact hnmi
  rw [step_of_syncWait hwait hreset, syncWaitStep, if_neg hnone, State.atFetch_of_not_nmiAtStep hnmi]

/-- Settles O57: SYNC writes the run state, and the step in the wait asks for any input. -/
theorem syncWaitsForAnyInput : Obligations.SyncWaitsForAnyInput :=
  ⟨fun _ => rfl, fun _ hwait hreset => ⟨syncWaitStep_ends hwait hreset, syncWaitStep_goes_on hwait hreset⟩⟩

/-- Settles O59: the latch as `atFetch` leaves it, and the step in SyncWait that follows from it. -/
theorem nmiEdgeIsLatchedOnlyWhileArmed : Obligations.NmiEdgeIsLatchedOnlyWhileArmed := by
  refine fun st => ⟨st.atFetch_eq, fun harmed hedge hwait hreset => ?_, step_dropEdge,
    fun hnot hwait hreset hfirq hirq => ?_⟩
  · have hnmi : NmiAtStep st := ⟨harmed, .inr hedge⟩
    rw [syncWaitStep_ends hwait hreset (.inl hnmi), latchAfter_of_nmiAtStep hnmi]
  · refine syncWaitStep_goes_on hwait hreset (fun hnmi => ?_) hfirq hirq
    exact Bool.false_ne_true (hnot.symm.trans hnmi.1)

/-! ## The wait after CWAI (R295) -/

/-- A recognised interrupt ends the wait in its handler, with nothing stacked; the vector is in RAM or ROM. -/
theorem step_cwaiWait_recognised {st : State} {ev : Event} {latch : Bool} (hwait : st.runState = .cwaiWait)
    (hreset : st.input.reset = false) (h : st.atFetch.recognised st.input = some ev)
    (hlatch : (latchAfter st && ev != .nmi) = latch) (hvector : BackedFrom st (vectorOf ev) 2) :
    step st = .next
      { st with env := st.env.tail, nmiPending := latch, cc := st.cc ||| masksOf ev,
                pc := st.peekWord (vectorOf ev), runState := .running } := by
  have hacked : st.atFetch.acknowledge ev = { st with env := st.env.tail, nmiPending := latch } := by
    rw [State.acknowledge_eq, State.atFetch_eq, ← hlatch]
  have hbacked : BackedFrom { st with env := st.env.tail, nmiPending := latch } (vectorOf ev) 2 := hvector
  rw [step_of_cwaiWait hwait hreset]
  simp only [cwaiWaitStep, h, takeVector_eq, hacked, readWord_of_backedFrom hbacked, andThen_next]
  rfl

/-- Settles O56: in each case what is recognised decides the step, NMI first. -/
theorem cwaiWaitEndsOnAnUnmaskedInterrupt : Obligations.CwaiWaitEndsOnAnUnmaskedInterrupt := by
  intro st hwait hreset
  refine ⟨fun hnmi => ?_, fun hnmi hfirq => ?_, fun hnmi hfirq hirq => ?_, fun hnmi hfirq hirq => ?_⟩
  · exact step_cwaiWait_recognised (ev := .nmi) hwait hreset (recognised_nmi hnmi) (Bool.and_false _)
  · exact step_cwaiWait_recognised (ev := .firq) hwait hreset (recognised_firq hnmi hfirq)
      ((Bool.and_true _).trans (latchAfter_of_not_nmiAtStep hnmi))
  · exact step_cwaiWait_recognised (ev := .irq) hwait hreset (recognised_irq hnmi hfirq hirq)
      ((Bool.and_true _).trans (latchAfter_of_not_nmiAtStep hnmi))
  · rw [step_of_cwaiWait hwait hreset, cwaiWaitStep, recognised_none hnmi hfirq hirq,
      State.atFetch_of_not_nmiAtStep hnmi]

end Sys2Proof.Machine
end

section
/-! PROOFS. The invariant (R295, R317, R318): no operation disarms NMI or puts memory out of its canonical form,
a wait after CWAI begins with E = 1, and a step in a wait leaves CC or ends the wait. -/

namespace Sys2Proof.Machine

/-! ## Canonical memory and an armed NMI -/

/-- From `st` to `t` memory has stayed canonical and NMI armed, where they were. -/
structure StaysSound (st t : State) : Prop where
  memory : st.mem.wf = true → t.mem.wf = true
  armed : st.nmiArmed = true → t.nmiArmed = true

theorem StaysSound.trans {st t w : State} (h : StaysSound st t) (h' : StaysSound t w) : StaysSound st w :=
  ⟨fun hwf => h'.memory (h.memory hwf), fun ha => h'.armed (h.armed ha)⟩

theorem staysSound_of_eq {st t : State} (hmem : t.mem = st.mem := by rfl)
    (harmed : t.nmiArmed = st.nmiArmed := by rfl) : StaysSound st t :=
  ⟨fun hwf => by rwa [hmem], fun ha => by rwa [harmed]⟩

/-- The operation keeps both wherever it answers a state. -/
def KeepsSound (op : State → Result) : Prop := ∀ ⦃st t : State⦄, op st = .next t → StaysSound st t

theorem staysSound_of_next {st t u : State} (h : (Host.Outcome.next u : Result) = .next t)
    (hu : StaysSound st u) : StaysSound st t := by
  cases h
  exact hu

theorem KeepsSound.andThen {op f : State → Result} (hop : KeepsSound op) (hf : KeepsSound f) :
    KeepsSound fun st => andThen (op st) f := fun st t h => by
  obtain ⟨u, h0, h1⟩ := andThen_eq_next.mp h
  exact (hop h0).trans (hf h1)

/-! ## The parts of an instruction -/

theorem readByte_staysSound {addr : Word} {st t : State} {v : Byte}
    (h : readByte addr st = .next (v, t)) : StaysSound st t := by
  rw [readByte_frame h]
  exact staysSound_of_eq

theorem readWord_staysSound {addr : Word} {st t : State} {v : Word}
    (h : readWord addr st = .next (v, t)) : StaysSound st t := by
  rw [readWord_frame h]
  exact staysSound_of_eq

theorem State.store_staysSound (st : State) (addr : Word) (v : Byte) : StaysSound st (st.store addr v) where
  memory := State.store_wf st addr v
  armed ha := by rwa [State.store_nmiArmed]

theorem PushFrame.staysSound {st t : State} (h : PushFrame st t) : StaysSound st t := by
  obtain ⟨heq, hwf⟩ := h
  exact ⟨hwf, fun ha => by rwa [heq]⟩

theorem PullFrame.staysSound {st t : State} (h : PullFrame st t) : StaysSound st t := by
  obtain ⟨hmem, -, -, -, -, -, harmed⟩ := h
  exact ⟨fun hwf => by rwa [hmem], harmed⟩

theorem eaIndexed_keepsSound (ix : Indexed) : KeepsSound (eaIndexed ix) := fun st t h => by
  rw [eaIndexed_frame h]
  exact staysSound_of_eq

theorem KeepsSound.direct {op : State → Result} (hop : KeepsSound op) (lo : Byte) :
    KeepsSound fun st => op (eaDirect lo st) := fun st _ h =>
  (staysSound_of_eq (st := st) (t := eaDirect lo st)).trans (hop h)

theorem KeepsSound.extended {op : State → Result} (hop : KeepsSound op) (addr : Word) :
    KeepsSound fun st => op (eaExtended addr st) := fun st _ h =>
  (staysSound_of_eq (st := st) (t := eaExtended addr st)).trans (hop h)

theorem KeepsSound.indexed {op : State → Result} (hop : KeepsSound op) (ix : Indexed) :
    KeepsSound fun st => Machine.andThen (eaIndexed ix st) op :=
  (eaIndexed_keepsSound ix).andThen hop

/-- A byte load, whatever register takes the byte. -/
theorem loadByteAt_keepsSound (put : State → Byte → State)
    (hput : ∀ st v, StaysSound st (put st v) := by exact fun _ _ => staysSound_of_eq) :
    KeepsSound (loadByteAt put) := fun st t h => by
  obtain ⟨⟨v, u⟩, hread, hnext⟩ := andThen_eq_next.mp h
  exact staysSound_of_next hnext ((readByte_staysSound hread).trans (hput u v))

/-- A 16-bit load, whatever register takes the value. -/
theorem loadWordAt_keepsSound (put : State → Word → State)
    (hput : ∀ st v, StaysSound st (put st v) := by exact fun _ _ => staysSound_of_eq) :
    KeepsSound (loadWordAt put) := fun st t h => by
  obtain ⟨⟨v, u⟩, hread, hnext⟩ := andThen_eq_next.mp h
  exact staysSound_of_next hnext ((readWord_staysSound hread).trans (hput u v))

theorem storeWordAt_keepsSound (get : State → Word) : KeepsSound (storeWordAt get) := fun st t h => by
  obtain ⟨-, -, rfl⟩ := storeWordAt_eq_next.mp h
  exact (st.store_staysSound _ _).trans ((State.store_staysSound _ _ _).trans staysSound_of_eq)

theorem shiftLeftAt_keepsSound : KeepsSound shiftLeftAt := fun st t h => by
  obtain ⟨⟨m, u⟩, hread, hrest⟩ := andThen_eq_next.mp h
  obtain ⟨w, hwrite, hnext⟩ := andThen_eq_next.mp hrest
  obtain ⟨-, rfl⟩ := writeByte_eq_next.mp hwrite
  exact staysSound_of_next hnext
    ((readByte_staysSound hread).trans ((u.store_staysSound _ _).trans staysSound_of_eq))

theorem branchIf_keepsSound (cond : Byte → Bool) (off : Word) : KeepsSound (branchIf cond off) :=
  fun st t h => staysSound_of_next h <| by split <;> exact staysSound_of_eq

/-- A register write may arm NMI and does not disarm it (R318). -/
theorem writeReg_staysSound (st : State) (r : Reg) (v : Word) : StaysSound st (st.writeReg r v) where
  memory hwf := by rwa [State.writeReg_mem]
  armed ha := by rw [State.writeReg_nmiArmed, ha, Bool.true_or]

theorem whenSameWidth_keepsSound (r1 r2 : Reg) {op : State → State} (hop : ∀ st, StaysSound st (op st)) :
    KeepsSound (whenSameWidth r1 r2 op) := fun st t h => by
  unfold whenSameWidth at h
  split at h
  · exact staysSound_of_next h (hop st)
  · cases h

theorem enterException_keepsSound (ev : Event) : KeepsSound (enterException ev) := fun st t h => by
  obtain ⟨heq, hwf⟩ := enterException_frame h
  exact ⟨hwf, fun ha => by rwa [heq]⟩

theorem execCwai_keepsSound (imm : Byte) : KeepsSound (execCwai imm) := fun st t h => by
  obtain ⟨u, hstack, hnext⟩ := andThen_eq_next.mp h
  have hmasked : StaysSound st (State.setFlag { st with cc := st.cc &&& imm } .e true) := staysSound_of_eq
  exact staysSound_of_next hnext (hmasked.trans ((stackAll_frame hstack).staysSound.trans staysSound_of_eq))

/-! ## Every instruction -/

/-- No instruction disarms NMI or puts memory out of its canonical form (R318). -/
theorem exec_keepsSound (i : Instr) : KeepsSound (exec i) := by
  intro st t h
  have hpostbyte := @exec_of_not_opcodeRow i
  cases i with
  | nop | sync | daa | abx | asra | clrb | ldaImm _ | ldbImm _ | lddImm _ | ldxImm _ | ldyImm _ | lduImm _ =>
    exact staysSound_of_next h staysSound_of_eq
  | rti => exact (returnFromException_frame h).staysSound
  | swi => exact enterException_keepsSound .swi h
  | swi2 => exact enterException_keepsSound .swi2 h
  | swi3 => exact enterException_keepsSound .swi3 h
  | cwai imm => exact execCwai_keepsSound imm h
  | aslDir lo => exact shiftLeftAt_keepsSound.direct lo h
  | aslIdx ix => exact shiftLeftAt_keepsSound.indexed ix h
  | aslExt addr => exact shiftLeftAt_keepsSound.extended addr h
  | ldaDir lo | ldbDir lo => exact (loadByteAt_keepsSound _).direct lo h
  | ldaIdx ix | ldbIdx ix => exact (loadByteAt_keepsSound _).indexed ix h
  | ldaExt addr | ldbExt addr => exact (loadByteAt_keepsSound _).extended addr h
  | lddDir lo | ldxDir lo | ldyDir lo | lduDir lo => exact (loadWordAt_keepsSound _).direct lo h
  | lddIdx ix | ldxIdx ix | ldyIdx ix | lduIdx ix => exact (loadWordAt_keepsSound _).indexed ix h
  | lddExt addr | ldxExt addr | ldyExt addr | lduExt addr => exact (loadWordAt_keepsSound _).extended addr h
  | stdDir lo | stxDir lo | stuDir lo => exact (storeWordAt_keepsSound _).direct lo h
  | stdIdx ix | stxIdx ix | stuIdx ix => exact (storeWordAt_keepsSound _).indexed ix h
  | stdExt addr | stxExt addr | stuExt addr => exact (storeWordAt_keepsSound _).extended addr h
  | leax ix =>
    obtain ⟨u, hea, hnext⟩ := andThen_eq_next.mp h
    exact staysSound_of_next hnext ((eaIndexed_keepsSound ix hea).trans staysSound_of_eq)
  | exg r1 r2 =>
    exact whenSameWidth_keepsSound r1 r2
      (fun st => (writeReg_staysSound st _ _).trans (writeReg_staysSound _ _ _)) h
  | tfr r1 r2 => exact whenSameWidth_keepsSound r1 r2 (fun st => writeReg_staysSound st _ _) h
  | pshs list => exact (pushList_frame h).staysSound
  | pulu list => exact (pullList_frame h).staysSound
  | beq _ | bgt _ | lbeq _ | lbgt _ => exact branchIf_keepsSound _ _ h
  | pbOff5 _ _ | pbInc1 _ | pbInc2 _ | pbInc2Ind _ | pbDec1 _ | pbDec2 _ | pbDec2Ind _ | pbZero _
  | pbZeroInd _ | pbAccB _ | pbAccBInd _ | pbAccA _ | pbAccAInd _ | pbOff8 _ _ | pbOff8Ind _ _
  | pbOff16 _ _ | pbOff16Ind _ _ | pbAccD _ | pbAccDInd _ | pbPcr8 _ | pbPcr8Ind _ | pbPcr16 _
  | pbPcr16Ind _ | pbExtInd _ =>
    obtain ⟨ix, hix⟩ := hpostbyte rfl
    exact eaIndexed_keepsSound ix ((hix st).symm.trans h)

/-! ## The invariant -/

/-- A state reached without disarming NMI or harming memory meets the invariant, if the NMI latch was not newly
set and a wait after CWAI has E = 1. -/
theorem State.Inv.of_staysSound {st t : State} (hst : st.Inv) (h : StaysSound st t)
    (hlatch : t.nmiPending = true → st.nmiPending = true)
    (hwaiting : t.runState = .cwaiWait → t.flag .e = true) : t.Inv where
  memory := h.memory hst.memory
  latch hp := h.armed (hst.latch (hlatch hp))
  waiting := hwaiting

/-- A state that is running waits for nothing. -/
theorem not_cwaiWait_of_running {st : State} {p : Prop} (h : st.runState = .running) :
    st.runState = .cwaiWait → p := by
  rw [h]
  nofun

/-- An instruction keeps the invariant: CWAI alone begins the wait after CWAI, with E = 1 (R295). -/
theorem exec_inv {i : Instr} {st t : State} (hst : st.Inv) (hrun : st.runState = .running)
    (h : exec i st = .next t) : t.Inv := by
  have heffect := exec_effect h
  refine hst.of_staysSound (exec_keepsSound i h) (fun hp => by rwa [← heffect.nmiPending]) fun hwait => ?_
  rcases heffect.runState with ⟨-, hsync⟩ | ⟨⟨imm, rfl⟩, -⟩ | ⟨-, -, hsame⟩
  · cases hsync.symm.trans hwait
  · exact heffect.flags .e
  · exact not_cwaiWait_of_running (hsame.trans hrun) hwait

theorem executeOne_inv {st t : State} (hst : st.Inv) (hrun : st.runState = .running)
    (h : executeOne st = .next t) : t.Inv := by
  obtain ⟨⟨i, u⟩, hfetch, hexec⟩ := andThen_eq_next.mp h
  have hframe := fetchInstr_frame hfetch
  have hurun : u.runState = .running := by rw [hframe, hrun]
  refine exec_inv (hst.of_staysSound ?_ ?_ (not_cwaiWait_of_running hurun)) hurun hexec
  · rw [hframe]
    exact staysSound_of_eq
  · rw [hframe]
    exact id

/-- Acknowledging an event does not set the NMI latch (R317). -/
theorem nmiPending_of_acknowledge {st : State} {ev : Event} (h : (st.acknowledge ev).nmiPending = true) :
    st.nmiPending = true := by
  rw [State.acknowledge_eq] at h
  exact (Bool.and_eq_true_iff.mp h).1

theorem enterException_inv {ev : Event} {st t : State} (hst : st.Inv) (hrun : st.runState = .running)
    (h : enterException ev st = .next t) : t.Inv := by
  have htrun : t.runState = .running := by rw [(enterException_frame h).1, hrun]
  refine hst.of_staysSound (enterException_keepsSound ev h) (fun hp => ?_) (not_cwaiWait_of_running htrun)
  rw [(enterException_cc_nmiPending h).2] at hp
  exact nmiPending_of_acknowledge hp

theorem syncWaitStep_inv {inp : EnvInput} {st t : State} (hst : st.Inv) (h : syncWaitStep inp st = .next t) :
    t.Inv := by
  unfold syncWaitStep at h
  split at h
  · cases h
    exact hst.of_staysSound staysSound_of_eq id nofun
  · cases h
    exact hst

/-- The wait after CWAI ends in a handler, or goes on with the state as it is (R295). -/
theorem cwaiWaitStep_inv {inp : EnvInput} {st t : State} (hst : st.Inv) (h : cwaiWaitStep inp st = .next t) :
    t.Inv := by
  unfold cwaiWaitStep at h
  split at h
  next ev _ =>
    obtain ⟨u, hvector, hnext⟩ := andThen_eq_next.mp h
    cases hnext
    have hjump := jumpToVector_frame hvector
    refine hst.of_staysSound (staysSound_of_eq ?_ ?_) (fun hp => ?_) nofun
    · rw [hjump]
      simp
    · rw [hjump]
      simp
    · rw [hjump] at hp
      exact nmiPending_of_acknowledge (by simpa using hp)
  next =>
    cases h
    exact hst

/-- Looking at the NMI edge sets the latch only while NMI is armed (R317). -/
theorem atFetch_inv {st : State} (hst : st.Inv) : st.atFetch.Inv := by
  rw [State.atFetch_eq]
  refine ⟨hst.memory, fun hlatched => ?_, hst.waiting⟩
  rcases Bool.or_eq_true_iff.mp hlatched with hpending | hedge
  · exact hst.latch hpending
  · exact (Bool.and_eq_true_iff.mp hedge).2

/-- RESET leaves memory, clears the NMI latch and ends any wait (R351). -/
theorem resetMachine_inv {st t : State} (hwf : st.mem.wf = true) (h : resetMachine st = .next t) : t.Inv := by
  obtain ⟨-, -, -, -, hlatch, hrun, hmem, -, -⟩ := resetMachine_frame h
  exact {
    memory := by rw [hmem, hwf]
    latch := by rw [hlatch]; nofun
    waiting := not_cwaiWait_of_running hrun }

theorem boundary_inv {inp : EnvInput} {st t : State} (hst : st.Inv)
    (h : boundary executeOne inp st = .next t) : t.Inv := by
  unfold boundary at h
  split at h
  next hrun =>
    split at h
    next ev _ => exact enterException_inv hst hrun h
    next => exact executeOne_inv hst hrun h
  next => exact syncWaitStep_inv hst h
  next => exact cwaiWaitStep_inv hst h

/-- Settles O18: RESET clears the latch and ends any wait, and all a boundary can do keeps the invariant. -/
theorem everyStepKeepsTheInvariant : Obligations.EveryStepKeepsTheInvariant := by
  intro st t hst h
  cases hreset : st.input.reset with
  | true =>
    rw [step, stepWith, if_pos hreset] at h
    exact resetMachine_inv (st := st.dropInput) hst.memory h
  | false =>
    rw [step_of_no_reset hreset] at h
    exact boundary_inv (atFetch_inv hst) h

end Sys2Proof.Machine
end

section
/-! PROOFS. Software interrupts, CWAI's stacking and RTI (R291 to R295, R322 to R328): an entry is a push of its
frame and then the vector; RTI reads the frame back from S. -/

namespace Sys2Proof.Machine

open Sys2Proof.Statements

/-! ## Entries from the stack's side -/

/-- An entry pushes its frame, then sets the masks and goes where the vector says (R291 to R293, R314, R322 to
R326). -/
theorem enterException_eq_pushDown (ev : Event) (st : State) :
    enterException ev st =
      andThen (pushDown (frameOf st ev).reverse st) fun u =>
      andThen (readWord (vectorOf ev) u) fun p =>
      .next { p.2 with
        cc := stackedCc st ev ||| masksOf ev, pc := p.1, nmiPending := st.nmiPending && ev != .nmi } := by
  rw [enterException_eq, pushDown, List.length_reverse, length_frameOf, andThen_assoc]
  simp only [andThen_next, (setS_registerUpdate (st.s - BitVec.ofNat 16 (frameBytes ev))).readWord, andThen_assoc]

theorem frameBytes_le (ev : Event) : frameBytes ev ≤ 65536 := by
  cases ev <;> decide

/-- What lies on the stack is memory's. -/
theorem frameStacked_of_mem_eq {st u t : State} {frame : List Byte} (hmem : t.mem = u.mem)
    (h : FrameStacked st u frame) : FrameStacked st t frame := by
  obtain ⟨houtside, hbytes⟩ := h
  refine ⟨fun a ha => ?_, fun hwf hram => (State.codeBytes_congr hmem _ _).trans (hbytes hwf hram)⟩
  rw [State.peek, hmem]
  exact houtside a ha

theorem backedFrom_of_map_eq {st t : State} {addr : Word} {n : Nat} (h : BackedFrom st addr n)
    (hmap : t.map = st.map) : BackedFrom t addr n := fun k hk => by
  rw [State.backed, State.kindAt, hmap]
  exact h k hk

/-- An entry onto a stack that answers, with its vector in RAM or ROM. -/
theorem enterException_backed {ev : Event} {st : State} {latch : Bool}
    (hlatch : (st.nmiPending && ev != .nmi) = latch)
    (hframe : MappedFrom st (st.s - BitVec.ofNat 16 (frameBytes ev)) (frameBytes ev))
    (hvector : BackedFrom st (vectorOf ev) 2) :
    ∃ t, enterException ev st = .next t ∧
      t = { st with s := st.s - BitVec.ofNat 16 (frameBytes ev), cc := stackedCc st ev ||| masksOf ev,
                    pc := t.peekWord (vectorOf ev), nmiPending := latch,
                    mem := t.mem, devices := t.devices, draws := t.draws } ∧
      FrameStacked st t (frameOf st ev) ∧
      SameDevicesUnlessIn st t (st.s - BitVec.ofNat 16 (frameBytes ev)) (frameBytes ev) := by
  have hlength := length_frameOf st ev
  rw [← hlength] at hframe ⊢
  obtain ⟨u, hpush, hu, hstacked, hdevices⟩ := pushDown_mapped (hlength.trans_le (frameBytes_le ev)) hframe
  have hread := readWord_of_backedFrom (backedFrom_of_map_eq (t := u) hvector (by rw [hu]))
  refine ⟨{ u with cc := stackedCc st ev ||| masksOf ev, pc := u.peekWord (vectorOf ev), nmiPending := latch },
    ?_, ?_, frameStacked_of_mem_eq (u := u) rfl hstacked, hdevices⟩
  · rw [enterException_eq_pushDown, hpush, andThen_next, hread, andThen_next, hlatch]
  · rw [hu]
    rfl

/-- Settles O50: each of the three is the entry of its event, which stacks the entire state and keeps the latch. -/
theorem softwareInterruptsEnterTheirHandlers : Obligations.SoftwareInterruptsEnterTheirHandlers := by
  rintro st i vector masks (⟨rfl, rfl, rfl⟩ | ⟨rfl, rfl, rfl⟩ | ⟨rfl, rfl, rfl⟩) hframe hvector
  · exact enterException_backed (ev := .swi) (Bool.and_true _) hframe hvector
  · exact enterException_backed (ev := .swi2) (Bool.and_true _) hframe hvector
  · exact enterException_backed (ev := .swi3) (Bool.and_true _) hframe hvector

/-! ## CWAI (R295) -/

/-- Settles O55: CWAI pushes the entire state as it is with the new CC, and writes the run state. -/
theorem cwaiStacksAndWaits : Obligations.CwaiStacksAndWaits := by
  intro st imm hmapped
  obtain ⟨u, hpush, hu, hstacked, hdevices⟩ := pushDown_mapped
    (frame := entireFrame st ((st.cc &&& imm) ||| 0x80#8))
    (st := State.setFlag { st with cc := st.cc &&& imm } .e true) (frameBytes_le .swi) hmapped
  refine ⟨{ u with runState := .cwaiWait }, ?_, ?_, frameStacked_of_mem_eq (u := u) rfl hstacked, hdevices⟩
  · have hstack : stackAll (State.setFlag { st with cc := st.cc &&& imm } .e true) = .next u :=
      (stackAll_eq _).trans hpush
    change execCwai imm st = _
    rw [execCwai, hstack, andThen_next]
  · rw [hu]
    rfl

/-! ## RTI (R294, R328) -/

/-- RTI with E = 1 in the first byte of the frame. -/
theorem returnFromException_entire {st : State} (hentire : (st.peek st.s).getLsbD 7 = true)
    (h : BackedFrom st st.s 12) :
    returnFromException st = .next { putEntire (st.codeBytes 12 st.s) st with s := st.s + 12#16 } := by
  rw [returnFromException_eq (readByte_backed (backedFrom_succ h).1), if_pos hentire]
  exact pullUp_backed putEntire h

/-- RTI with E = 0 in the first byte of the frame. -/
theorem returnFromException_fast {st : State} (hfast : (st.peek st.s).getLsbD 7 = false)
    (h : BackedFrom st st.s 3) :
    returnFromException st = .next { putFast (st.codeBytes 3 st.s) st with s := st.s + 3#16 } := by
  rw [returnFromException_eq (readByte_backed (backedFrom_succ h).1), if_neg (Bool.eq_false_iff.mp hfast)]
  exact pullUp_backed putFast h

/-- Settles O53: each register takes its bytes of the frame, which lie from S up. -/
theorem rtiPullsWhatTheStackedESays : Obligations.RtiPullsWhatTheStackedESays := by
  refine fun st => ⟨fun hentire h => (returnFromException_entire hentire h).trans ?_,
    fun hfast h => (returnFromException_fast hfast h).trans ?_⟩
  · simp (disch := decide) only [putEntire, byteOf_codeBytes, wordOf_codeBytes, BitVec.add_zero]
  · simp (disch := decide) only [putFast, byteOf_codeBytes, wordOf_codeBytes, BitVec.add_zero]

/-- What an answered entry leaves on the stack, whatever its vector answers. -/
theorem enterException_frameStacked {ev : Event} {st t : State} (h : enterException ev st = .next t) :
    t.s = st.s - BitVec.ofNat 16 (frameBytes ev) ∧ FrameStacked st t (frameOf st ev) := by
  rw [enterException_eq] at h
  obtain ⟨stacked, hwrite, hrest⟩ := andThen_eq_next.mp h
  obtain ⟨⟨handler, w⟩, hread, hnext⟩ := andThen_eq_next.mp hrest
  cases hnext
  have hmem : w.mem = stacked.mem := by rw [readWord_frame hread]
  exact ⟨rfl, writeDown_frameStacked hwrite hmem ((length_frameOf st ev).trans_le (frameBytes_le ev))⟩

theorem wordOf_pair (bytes : List Byte) {k : Nat} {v : Word} (hhigh : byteOf bytes k = highByte v)
    (hlow : byteOf bytes (k + 1) = lowByte v) : wordOf bytes k = v := by
  rw [wordOf, hhigh, hlow]
  exact joinBytes_highByte_lowByte v

/-- RTI on a frame of the entire state gives every register back (R294, R322). -/
theorem returnFromException_entireFrame {st t : State} {cc : Byte} (hbacked : BackedFrom t t.s 12)
    (hcode : t.codeBytes 12 t.s = entireFrame st cc) (hentire : cc.getLsbD 7 = true) :
    returnFromException t = .next
      { t with cc := cc, a := st.a, b := st.b, dp := st.dp, x := st.x, y := st.y, u := st.u, pc := st.pc,
               s := t.s + 12#16 } := by
  have hcc : t.peek t.s = cc := (List.cons.inj hcode).1
  have word {k : Nat} {v : Word} := wordOf_pair (entireFrame st cc) (k := k) (v := v)
  rw [returnFromException_entire (by rwa [hcc]) hbacked, hcode, putEntire, word (v := st.x) rfl rfl,
    word (v := st.y) rfl rfl, word (v := st.u) rfl rfl, word (v := st.pc) rfl rfl]
  rfl

/-- RTI on a frame of FIRQ gives CC and PC back (R294, R323). -/
theorem returnFromException_fastFrame {st t : State} {cc : Byte} (hbacked : BackedFrom t t.s 3)
    (hcode : t.codeBytes 3 t.s = fastFrame st cc) (hfast : cc.getLsbD 7 = false) :
    returnFromException t = .next { t with cc := cc, pc := st.pc, s := t.s + 3#16 } := by
  have hcc : t.peek t.s = cc := (List.cons.inj hcode).1
  rw [returnFromException_fast (by rwa [hcc]) hbacked, hcode, putFast,
    wordOf_pair (fastFrame st cc) (v := st.pc) rfl rfl]
  rfl

/-- The E an entry stacks tells RTI how much was stacked (R324, R325, R328). -/
theorem stackedCc_getLsbD_e (st : State) (ev : Event) : (stackedCc st ev).getLsbD 7 = (ev != .firq) := by
  cases ev <;> simp [stackedCc]

/-- Settles O54: in RAM the frame lies from the new S up, where RTI reads it. -/
theorem rtiUndoesEveryEntry : Obligations.RtiUndoesEveryEntry := by
  intro ev st t hwf hram h
  obtain ⟨hs, -, hbytes⟩ := enterException_frameStacked h
  obtain ⟨ht, -⟩ := enterException_frame h
  have hmap : t.map = st.map := by rw [ht]
  have hcode := hbytes hwf
  have he := stackedCc_getLsbD_e st ev
  rw [length_frameOf, ← hs] at hcode
  change returnFromException t = _
  by_cases hev : ev = .firq
  · subst hev
    have hram : RamFrom st t.s 3 := hs ▸ hram
    have hs' : t.s + 3#16 = st.s := hs ▸ BitVec.sub_add_cancel st.s 3#16
    rw [returnFromException_fastFrame (backedFrom_of_map_eq (backedFrom_of_ramFrom hram) hmap) (hcode hram) he,
      hs', ht]
    rfl
  · simp only [frameBytes, frameOf, if_neg hev] at hs hcode hram ⊢
    rw [← hs] at hram
    have hs' : t.s + 12#16 = st.s := hs ▸ BitVec.sub_add_cancel st.s 12#16
    rw [returnFromException_entireFrame (backedFrom_of_map_eq (backedFrom_of_ramFrom hram) hmap) (hcode hram)
      (he.trans (bne_iff_ne.mpr hev)), hs', stackedCc, if_neg hev, ht]

end Sys2Proof.Machine
end

section
/-! PROOFS. The entries of the interrupts (R319 to R326): what is recognised in a running machine is entered, with
the input used up and the latch as the look at the edge leaves it. -/

namespace Sys2Proof.Machine

open Sys2Proof.Statements

/-! ## Stacking the entire state (R322) -/

/-- A list of all the registers goes down as the entire state does (R253, R322). -/
theorem stackAll_eq_pshs (st : State) : stackAll st = exec (.pshs 0xFF#8) st :=
  (stackAll_eq st).trans (pushList_eq 0xFF#8 st).symm

theorem stackAll_mapped {st : State} (h : MappedFrom st (st.s - 12#16) 12) :
    ∃ t, stackAll st = .next t ∧
      t = { st with s := st.s - 12#16, mem := t.mem, devices := t.devices, draws := t.draws } ∧
      FrameStacked st t (entireFrame st st.cc) ∧ SameDevicesUnlessIn st t (st.s - 12#16) 12 := by
  rw [stackAll_eq]
  exact pushDown_mapped (frame := entireFrame st st.cc) (frameBytes_le .swi) h

/-- Settles O49: both are one push of the same twelve bytes. -/
theorem stackingTheEntireState : Obligations.StackingTheEntireState :=
  fun st => ⟨stackAll_eq_pshs st, stackAll_mapped⟩

/-! ## From recognition to the handler (R319 to R321) -/

theorem step_running_recognised {st : State} {ev : Event} (hrun : st.runState = .running)
    (hreset : st.input.reset = false) (h : st.atFetch.recognised st.input = some ev) :
    step st = enterException ev st.atFetch := by
  rw [step_of_no_reset hreset, boundary, State.atFetch_runState, hrun]
  simp only [h]

/-- The whole step: the entry of the recognised event from the state after the look at the inputs, onto a stack that
answers, with its vector in RAM or ROM. -/
theorem step_running_enters {st : State} {ev : Event} {latch : Bool} {cc : Byte} (hrun : st.runState = .running)
    (hreset : st.input.reset = false) (h : st.atFetch.recognised st.input = some ev)
    (hlatch : (latchAfter st && ev != .nmi) = latch) (hcc : stackedCc st ev ||| masksOf ev = cc)
    (hframe : MappedFrom st (st.s - BitVec.ofNat 16 (frameBytes ev)) (frameBytes ev))
    (hvector : BackedFrom st (vectorOf ev) 2) :
    ∃ t, step st = .next t ∧
      t = { st with env := st.env.tail, nmiPending := latch, s := st.s - BitVec.ofNat 16 (frameBytes ev), cc := cc,
                    pc := t.peekWord (vectorOf ev), mem := t.mem, devices := t.devices, draws := t.draws } ∧
      FrameStacked st t (frameOf st ev) ∧
      SameDevicesUnlessIn st t (st.s - BitVec.ofNat 16 (frameBytes ev)) (frameBytes ev) := by
  rw [step_running_recognised hrun hreset h, State.atFetch_eq, ← hcc]
  exact enterException_backed (st := { st with env := st.env.tail, nmiPending := latchAfter st }) hlatch hframe
    hvector

/-- Settles O51: NMI comes first and clears its latch; IRQ comes last and leaves it, as it leaves F. -/
theorem nmiAndIrqEntry : Obligations.NmiAndIrqEntry := by
  refine fun st hrun hreset hframe => ⟨fun hnmi hvector => ?_, fun hnmi hfirq hirq hvector => ?_⟩
  · exact step_running_enters (ev := .nmi) hrun hreset (recognised_nmi hnmi) (Bool.and_false _)
      (BitVec.or_assoc st.cc 0x80#8 0x50#8) hframe hvector
  · exact step_running_enters (ev := .irq) hrun hreset (recognised_irq hnmi hfirq hirq)
      ((Bool.and_true _).trans (latchAfter_of_not_nmiAtStep hnmi)) (BitVec.or_assoc st.cc 0x80#8 0x10#8) hframe
      hvector

/-- Settles O52: with no NMI to be taken FIRQ is recognised, IRQ or not, and its entry stacks the short frame. -/
theorem firqEntry : Obligations.FirqEntry := fun _ hrun hreset hnmi hfirq hframe hvector =>
  step_running_enters (ev := .firq) hrun hreset (recognised_firq hnmi hfirq)
    ((Bool.and_true _).trans (latchAfter_of_not_nmiAtStep hnmi)) rfl hframe hvector

end Sys2Proof.Machine
end

section
/-! PROOFS. The arming of NMI (R318): each instruction arms it exactly if it loads S, and none disarms it. -/

namespace Sys2Proof.Machine

open Sys2Proof.Statements

/-! ## The instructions that load S -/

/-- `loadsS`, computed. -/
def armsNmi : Instr → Bool
  | .tfr _ r2 => r2 == .s
  | .exg r1 r2 => r1 == .s || r2 == .s
  | .pulu list => list.getLsbD 6
  | _ => false

theorem armsNmi_iff_loadsS {i : Instr} : armsNmi i = true ↔ loadsS i := by
  cases i with
  | tfr r1 r2 => simp [armsNmi, loadsS]
  | exg r1 r2 => simp [armsNmi, loadsS, or_comm]
  | pulu list => simp [armsNmi, loadsS]
  | _ => simp [armsNmi, loadsS]

/-! ## What arms NMI and what leaves it -/

/-- Wherever the operation answers a state, NMI is armed there if `arms` says so, and otherwise as before. -/
def ArmsNmi (arms : Bool) (op : State → Result) : Prop :=
  ∀ ⦃st t : State⦄, op st = .next t → t.nmiArmed = (st.nmiArmed || arms)

theorem nmiArmed_of_next {arms : Bool} {st t u : State} (h : (Host.Outcome.next u : Result) = .next t)
    (hu : u.nmiArmed = (st.nmiArmed || arms)) : t.nmiArmed = (st.nmiArmed || arms) := by
  cases h
  exact hu

theorem kept_nmiArmed {st t : State} (h : t.nmiArmed = st.nmiArmed) : t.nmiArmed = (st.nmiArmed || false) :=
  h.trans (Bool.or_false _).symm

theorem readByte_nmiArmed {addr : Word} {st t : State} {v : Byte} (h : readByte addr st = .next (v, t)) :
    t.nmiArmed = st.nmiArmed := by
  rw [readByte_frame h]

theorem readWord_nmiArmed {addr : Word} {st t : State} {v : Word} (h : readWord addr st = .next (v, t)) :
    t.nmiArmed = st.nmiArmed := by
  rw [readWord_frame h]

theorem AddressFrame.nmiArmed {st t : State} (h : AddressFrame st t) : t.nmiArmed = st.nmiArmed := by
  rw [h]

theorem PushFrame.nmiArmed {st t : State} (h : PushFrame st t) : t.nmiArmed = st.nmiArmed := by
  rw [h.1]

/-- Steps of a pointer register do not arm NMI, S's among them (R318). -/
theorem ArmsNmi.reach {arms : Bool} {op : State → Result} (hop : ArmsNmi arms op) (o : MemOperand) :
    ArmsNmi arms fun st => andThen (reachOperand st o) op := fun st t h => by
  obtain ⟨u, hreach, hrest⟩ := andThen_eq_next.mp h
  rw [hop hrest, (reachOperand_frame hreach).nmiArmed]

theorem loadByteAt_armsNmi (put : State → Byte → State)
    (hput : ∀ st v, (put st v).nmiArmed = st.nmiArmed := by exact fun _ _ => rfl) :
    ArmsNmi false (loadByteAt put) := fun st t h => by
  obtain ⟨⟨v, u⟩, hread, hnext⟩ := andThen_eq_next.mp h
  exact nmiArmed_of_next hnext (kept_nmiArmed ((hput u v).trans (readByte_nmiArmed hread)))

theorem loadWordAt_armsNmi (put : State → Word → State)
    (hput : ∀ st v, (put st v).nmiArmed = st.nmiArmed := by exact fun _ _ => rfl) :
    ArmsNmi false (loadWordAt put) := fun st t h => by
  obtain ⟨⟨v, u⟩, hread, hnext⟩ := andThen_eq_next.mp h
  exact nmiArmed_of_next hnext (kept_nmiArmed ((hput u v).trans (readWord_nmiArmed hread)))

theorem storeWordAt_armsNmi (get : State → Word) : ArmsNmi false (storeWordAt get) := fun st t h => by
  obtain ⟨-, -, rfl⟩ := storeWordAt_eq_next.mp h
  exact kept_nmiArmed ((State.store_nmiArmed _ _ _).trans (State.store_nmiArmed _ _ _))

theorem shiftLeftAt_armsNmi : ArmsNmi false shiftLeftAt := fun st t h => by
  obtain ⟨⟨m, u⟩, hread, hrest⟩ := andThen_eq_next.mp h
  obtain ⟨w, hwrite, hnext⟩ := andThen_eq_next.mp hrest
  obtain ⟨-, rfl⟩ := writeByte_eq_next.mp hwrite
  exact nmiArmed_of_next hnext (kept_nmiArmed ((State.store_nmiArmed _ _ _).trans (readByte_nmiArmed hread)))

theorem execLeax_armsNmi (ix : Indexed) : ArmsNmi false (execLeax ix) := fun st t h => by
  obtain ⟨u, hea, hnext⟩ := andThen_eq_next.mp h
  exact nmiArmed_of_next hnext (kept_nmiArmed (eaIndexed_frame hea).nmiArmed)

theorem branchIf_armsNmi (cond : Byte → Bool) (off : Word) : ArmsNmi false (branchIf cond off) :=
  fun st t h => nmiArmed_of_next h <| kept_nmiArmed <| by split <;> rfl

theorem enterException_armsNmi (ev : Event) : ArmsNmi false (enterException ev) := fun st t h => by
  rw [(enterException_frame h).1, Bool.or_false]

theorem execCwai_armsNmi (imm : Byte) : ArmsNmi false (execCwai imm) := fun st t h => by
  obtain ⟨u, hstack, hnext⟩ := andThen_eq_next.mp h
  exact nmiArmed_of_next hnext (kept_nmiArmed (stackAll_frame hstack).nmiArmed)

/-! ## Transfers and pulls -/

theorem whenSameWidth_armsNmi (r1 r2 : Reg) {arms : Bool} {op : State → State}
    (hop : ∀ st, (op st).nmiArmed = (st.nmiArmed || arms)) : ArmsNmi arms (whenSameWidth r1 r2 op) :=
  fun st t h => by
    unfold whenSameWidth at h
    split at h
    · exact nmiArmed_of_next h (hop st)
    · cases h

theorem exchange_nmiArmed (r1 r2 : Reg) (st : State) :
    (exchange r1 r2 st).nmiArmed = (st.nmiArmed || (r1 == .s || r2 == .s)) := by
  rw [exchange, State.writeReg_nmiArmed, State.writeReg_nmiArmed, Bool.or_assoc]

/-- A pull arms NMI if what it does with the bytes does; moving the stack pointer does not (R318). -/
theorem pullUp_armsNmi {k : Stack} {n : Nat} {put : List Byte → State → State} {arms : Bool}
    (hput : ∀ bytes st, (put bytes st).nmiArmed = (st.nmiArmed || arms)) : ArmsNmi arms (pullUp k n put) :=
  fun st t h => by
    obtain ⟨⟨bytes, u⟩, hreads, hnext⟩ := andThen_eq_next.mp h
    have hu : u.nmiArmed = st.nmiArmed := by rw [readUp_frame hreads]
    exact nmiArmed_of_next hnext (by rw [State.setSp_nmiArmed, hput, hu])

theorem pullList_armsNmi (list : Byte) : ArmsNmi (list.getLsbD 6) (pullList list) := fun st _ h =>
  pullUp_armsNmi (put := putList list) (fun _ _ => rfl) (((pullList_pulls list).eq st).symm.trans h)

/-- RTI pulls U and not S, whichever frame it finds (R294). -/
theorem returnFromException_armsNmi : ArmsNmi false returnFromException := fun st t h => by
  obtain ⟨_, hpull, -⟩ := andThen_eq_next.mp h
  obtain ⟨_, hbyte, -⟩ := andThen_eq_next.mp hpull
  obtain ⟨_, hread, -⟩ := andThen_eq_next.mp hbyte
  rw [returnFromException_eq hread] at h
  split at h
  · exact pullUp_armsNmi (put := putEntire) (fun _ _ => kept_nmiArmed rfl) h
  · exact pullUp_armsNmi (put := putFast) (fun _ _ => kept_nmiArmed rfl) h

/-! ## Every instruction -/

/-- NMI after an instruction: armed if it was, or if the instruction loads S (R318). -/
theorem exec_armsNmi (i : Instr) : ArmsNmi (armsNmi i) (exec i) := by
  intro st t h
  have hpostbyte := @exec_of_not_opcodeRow i
  cases i with
  | nop | sync | daa | abx | asra | clrb | ldaImm _ | ldbImm _ | lddImm _ | ldxImm _ | ldyImm _ | lduImm _ =>
    exact nmiArmed_of_next h (kept_nmiArmed rfl)
  | rti => exact returnFromException_armsNmi h
  | swi => exact enterException_armsNmi .swi h
  | swi2 => exact enterException_armsNmi .swi2 h
  | swi3 => exact enterException_armsNmi .swi3 h
  | cwai imm => exact execCwai_armsNmi imm h
  | aslDir lo => exact shiftLeftAt_armsNmi.reach (.direct lo) h
  | aslIdx ix => exact shiftLeftAt_armsNmi.reach (.indexed ix) h
  | aslExt addr => exact shiftLeftAt_armsNmi.reach (.extended addr) h
  | ldaDir lo | ldbDir lo => exact (loadByteAt_armsNmi _).reach (.direct lo) h
  | ldaIdx ix | ldbIdx ix => exact (loadByteAt_armsNmi _).reach (.indexed ix) h
  | ldaExt addr | ldbExt addr => exact (loadByteAt_armsNmi _).reach (.extended addr) h
  | lddDir lo | ldxDir lo | ldyDir lo | lduDir lo => exact (loadWordAt_armsNmi _).reach (.direct lo) h
  | lddIdx ix | ldxIdx ix | ldyIdx ix | lduIdx ix => exact (loadWordAt_armsNmi _).reach (.indexed ix) h
  | lddExt addr | ldxExt addr | ldyExt addr | lduExt addr =>
    exact (loadWordAt_armsNmi _).reach (.extended addr) h
  | stdDir lo | stxDir lo | stuDir lo => exact (storeWordAt_armsNmi _).reach (.direct lo) h
  | stdIdx ix | stxIdx ix | stuIdx ix => exact (storeWordAt_armsNmi _).reach (.indexed ix) h
  | stdExt addr | stxExt addr | stuExt addr => exact (storeWordAt_armsNmi _).reach (.extended addr) h
  | leax ix => exact execLeax_armsNmi ix h
  | exg r1 r2 => exact whenSameWidth_armsNmi r1 r2 (exchange_nmiArmed r1 r2) h
  | tfr r1 r2 => exact whenSameWidth_armsNmi r1 r2 (fun st => State.writeReg_nmiArmed st r2 _) h
  | pshs list => exact kept_nmiArmed (pushList_frame h).nmiArmed
  | pulu list => exact pullList_armsNmi list h
  | beq _ | bgt _ | lbeq _ | lbgt _ => exact branchIf_armsNmi _ _ h
  | pbOff5 _ _ | pbInc1 _ | pbInc2 _ | pbInc2Ind _ | pbDec1 _ | pbDec2 _ | pbDec2Ind _ | pbZero _
  | pbZeroInd _ | pbAccB _ | pbAccBInd _ | pbAccA _ | pbAccAInd _ | pbOff8 _ _ | pbOff8Ind _ _
  | pbOff16 _ _ | pbOff16Ind _ _ | pbAccD _ | pbAccDInd _ | pbPcr8 _ | pbPcr8Ind _ | pbPcr16 _
  | pbPcr16Ind _ | pbExtInd _ =>
    obtain ⟨ix, hix⟩ := hpostbyte rfl
    exact kept_nmiArmed (eaIndexed_frame ((hix st).symm.trans h)).nmiArmed

/-- Settles O22: the arming after an instruction, by whether it loads S. -/
theorem onlyLoadsOfSArmNmi : Obligations.OnlyLoadsOfSArmNmi := by
  refine fun i st t h => ⟨fun hloads => ?_, fun hno => ?_⟩
  · rw [exec_armsNmi i h, armsNmi_iff_loadsS.mpr hloads, Bool.or_true]
  · rw [exec_armsNmi i h, Bool.eq_false_iff.mpr (mt armsNmi_iff_loadsS.mp hno), Bool.or_false]

end Sys2Proof.Machine
end

section
/-! PROOFS. RESET at a step boundary (R351, R352). -/

namespace Sys2Proof.Machine

open Sys2Proof.Statements

theorem step_of_reset {st : State} (h : st.input.reset = true) : step st = resetMachine st.dropInput :=
  if_pos h

/-- RESET with its vector in RAM or ROM goes where the vector points; what else it sets is
`resetMachine_frame` (R351). -/
theorem resetMachine_backed {st : State} (hvector : BackedFrom st Config.vectorReset 2) :
    ∃ t, resetMachine st = .next t ∧ t.pc = st.peekWord Config.vectorReset := by
  obtain ⟨hhigh, hlater⟩ := backedFrom_succ hvector
  obtain ⟨hlow, -⟩ := backedFrom_succ hlater
  exact ⟨_, jumpToVector_backed hhigh hlow, rfl⟩

/-- Settles O58: the step is `Reset()` with the input used up, and neither looks at the run state. -/
theorem resetStepSetsWhatTheSpecGives : Obligations.ResetStepSetsWhatTheSpecGives := by
  intro st hreset hvector
  have hdropped : BackedFrom st.dropInput Config.vectorReset 2 := backedFrom_of_map_eq hvector st.dropInput_map
  obtain ⟨t, hnext, hpc⟩ := resetMachine_backed hdropped
  obtain ⟨hdp, hf, hi, harmed, hlatch, hrun, hmem, hmap, henv⟩ := resetMachine_frame hnext
  exact ⟨t, (step_of_reset hreset).trans hnext, hdp, hf, hi, harmed, hlatch, hrun, hpc, hmem, hmap, henv⟩

end Sys2Proof.Machine
end
